-- ==== Sys2Proof/Word.lean ====
section
/-! DEFINITION. The word types of the block and nothing else (00_scope.md R7). -/

namespace Sys2Proof

/-- A byte: 8 bits, unsigned, bit 0 the least significant (R7). -/
abbrev Byte := BitVec 8

/-- A packed frame, as it travels on the 64-bit ports (R42). -/
abbrev Word := BitVec 64

/-- The 16-bit value a frame carries (R62). -/
abbrev Value := BitVec 16

/-- The byte index 0..7, the one index space of the block (R41). -/
abbrev ByteIx := Fin 8

/-- An array of 8 bytes: a frame, an intermediate array of the transform, or a constant table (R41). -/
abbrev Bytes := ByteIx → Byte

end Sys2Proof
end

