-- ==== Sys2Proof/Config.lean ====
section
/-! DEFINITION. What an implementation fixes at build time (00_scope.md R6) and the free values. Every constant
whose value the spec leaves open has no body here, so that nothing can be proved of its value. -/

namespace Sys2Proof

/-- The parameters a model takes as arguments (R6): `KEY` and `CSTATE`, fixed for a whole run (R159). -/
structure Params where
  /-- `KEY[0..7]`, the ObfuscationKey (R30). -/
  key : Bytes
  /-- `CSTATE[0..7]`, the CipherState (R31). -/
  cstate : Bytes

/-- The ObfuscationKey: OPEN in the spec (R30, U6, D10). -/
opaque Config.key : Bytes

/-- The CipherState: OPEN in the spec (R31, U7, D11). -/
opaque Config.cstate : Bytes

/-- The parameters this block is built with. -/
def Config.params : Params := { key := Config.key, cstate := Config.cstate }

/-- Free value (R150, U1): what the first edge of a reset that follows `n` edges without reset does to `r_ok`:
`none` keeps it, `some v` gives it the value `v`. A further edge of that reset draws nothing (R152). -/
opaque Config.resetOk : Nat → Option Bool

/-- Free value (R150, U1): the same for `r_path`; `some true` is `XF`, `some false` is `RAW`. -/
opaque Config.resetPath : Nat → Option Bool

/-- Free value (R150, U1): the same for `r_bytes`. -/
opaque Config.resetBytes : Nat → Option Word

/-- `FRAME_BYTES` (R6, R60). -/
def Config.frameBytes : Nat := 8

/-- `LATENCY`, in clock edges: 1 in this design (R6, R160). -/
def Config.latency : Nat := 1

end Sys2Proof
end

