-- ==== Sys2Proof/Machine/Operands.lean ====
section
/-! DEFINITION. Frames as operands: the packing of a frame in a word (20_memory.md R42), the plaintext format
(30_encoding.md R61), and `PARSE` (43_frame_parser.md). -/

namespace Sys2Proof.Machine

/-- `word[63-8i : 56-8i]`, byte `i` of a packed frame (R42). -/
def byteAt (w : Word) (i : ByteIx) : Byte := w.extractLsb' (56 - 8 * i.val) 8

/-- The 8-byte array of a packed frame (R42). -/
def unpack (w : Word) : Bytes := fun i => byteAt w i

/-- `d[0] || d[1] || ... || d[7]`, byte 0 in the most significant place (R42). -/
def pack (d : Bytes) : Word :=
  d 0 ++ d 1 ++ d 2 ++ d 3 ++ d 4 ++ d 5 ++ d 6 ++ d 7

/-- The 8-byte array with the given bytes in order, byte 0 first. -/
def bytesOf (b0 b1 b2 b3 b4 b5 b6 b7 : Byte) : Bytes := ![b0, b1, b2, b3, b4, b5, b6, b7]

/-- The array of a list of exactly 8 bytes in arrival order (R42, R60); `none` for any other length (R46). -/
def bytesOfList : List Byte → Option Bytes
  | [b0, b1, b2, b3, b4, b5, b6, b7] => some (bytesOf b0 b1 b2 b3 b4 b5 b6 b7)
  | _ => none

/-- The bytes of a packed frame in arrival order, byte 0 first (R42). -/
def byteList (w : Word) : List Byte :=
  [byteAt w 0, byteAt w 1, byteAt w 2, byteAt w 3, byteAt w 4, byteAt w 5, byteAt w 6, byteAt w 7]

/-- `TRAILER4` (R6, R82). -/
def trailer4 : Byte := 0x0D#8

/-- `TRAILER567` (R6, R82). -/
def trailer567 : Byte := 0x00#8

/-- The sum of three bytes as unsigned integers, reduced modulo 256 (R81). -/
def sumByte (b0 b1 b2 : Byte) : Byte := BitVec.ofNat 8 ((b0.toNat + b1.toNat + b2.toNat) % 256)

/-- The plaintext frame with the given fields: `SUM` and the trailer are determined by them (R61). -/
def plaintextWord (op vhi vlo : Byte) : Word :=
  pack (bytesOf op vhi vlo (sumByte op vhi vlo) trailer4 trailer567 trailer567 trailer567)

/-- `(zext_16(VHI) << 8) | zext_16(VLO)`: big-endian, unsigned (R62). -/
def valueOf (vhi vlo : Byte) : Value := (vhi.setWidth 16 <<< 8) ||| vlo.setWidth 16

/-- `PARSE_OP(b) = b[0]` (R120). -/
def parseOp (w : Word) : Byte := byteAt w 0

/-- `PARSE_VALUE(b) = (zext_16(b[1]) << 8) | zext_16(b[2])` (R121). -/
def parseValue (w : Word) : Value := valueOf (byteAt w 1) (byteAt w 2)

/-- The CO2 code `'P'`, the one code the source gives (R65). -/
def codeCo2 : Byte := 0x50#8

/-- The temperature code `'B'`, from general knowledge (R65, G3). PRESUMED: notes/assumptions/7.md. -/
def codeTemperature : Byte := 0x42#8

/-- The relative-humidity code `'A'`, from general knowledge (R65, G3). PRESUMED: notes/assumptions/7.md. -/
def codeHumidity : Byte := 0x41#8

end Sys2Proof.Machine
end

