-- ==== Sys2Proof/Machine/Flags.lean ====
section
/-! DEFINITION. The checksum_validator's predicate `CHECK` (40_checksum_validator.md) and the block's only flags,
`r_ok` and `r_path` (10_state.md R27, 60_exceptions.md R132). -/

namespace Sys2Proof.Machine

/-- `SUM_OK(d)`: bytes 0 to 2 as unsigned integers, summed, reduced modulo 256, against byte 3 (R81). -/
def sumOk (d : Bytes) : Bool := sumByte (d 0) (d 1) (d 2) == d 3

/-- `TRAILER_OK(d)`: three separate equalities with 0 beside `d[4] = 0x0d` (R82, D26). -/
def trailerOk (d : Bytes) : Bool :=
  d 4 == trailer4 && d 5 == trailer567 && d 6 == trailer567 && d 7 == trailer567

/-- `CHECK(d) = SUM_OK(d) AND TRAILER_OK(d)` (R80). -/
def check (d : Bytes) : Bool := sumOk d && trailerOk d

/-- `CHECK` of a packed frame (R84). -/
def checkWord (w : Word) : Bool := check (unpack w)

/-- Which attempt a result comes from: `RAW` is bit 0, `XF` is bit 1 (R10, R23). -/
inductive Path where
  | raw
  | xf
deriving DecidableEq, Repr

/-- The port bit of a path: `RAW` = 0, `XF` = 1 (R23). -/
def pathBit : Path → Bool
  | .raw => false
  | .xf => true

/-- The path a port bit stands for (R23). -/
def pathOfBit : Bool → Path
  | false => .raw
  | true => .xf

/-- The outcomes the pair `(out_ok, out_path)` encodes (R132). -/
inductive Status where
  | okRaw
  | okXf
  | chkErr
  | reserved
deriving DecidableEq, Repr

/-- The table of R132. -/
def statusOf : Bool → Path → Status
  | true, .raw => .okRaw
  | true, .xf => .okXf
  | false, .xf => .chkErr
  | false, .raw => .reserved

end Sys2Proof.Machine
end

