-- ==== Sys2Proof/Machine/Transform.lean ====
section
/-! DEFINITION. `DECRYPT`, the reversal transform, step by step (42_frame_deobfuscator.md R100 to R105), its inverse
`E` (R106) and its packed-word form (R108). `KEY` and `CSTATE` come as arguments (00_scope.md R6). -/

namespace Sys2Proof.Machine

/-- `SHUFFLE`: entry `i` is the destination index of source index `i` (R32). -/
def shuffle : ByteIx → ByteIx := ![2, 4, 0, 7, 1, 6, 5, 3]

/-- `INV[j]`: the source index whose destination is `j` (R32). -/
def shuffleInv : ByteIx → ByteIx := ![2, 4, 0, 7, 1, 6, 5, 3]

/-- Step a, `phase1[SHUFFLE[i]] = d[i]`: entry `j` is read from the index whose destination is `j` (R101). -/
def permute (d : Bytes) : Bytes := fun j => d (shuffleInv j)

/-- Step b, `phase2[i] = phase1[i] XOR KEY[i]` (R102). -/
def xorKey (p : Params) (x : Bytes) : Bytes := fun i => x i ^^^ p.key i

/-- Step c, `((phase2[i] >> 3) | (phase2[(i-1+8) mod 8] << 5)) & 0xFF`; `i - 1` is taken modulo 8 and the
shift left keeps a byte (R103, C2). -/
def rotate3 (x : Bytes) : Bytes := fun i => (x i >>> 3) ||| (x (i - 1) <<< 5)

/-- `CTMP`: each byte of `CSTATE` with its nibbles swapped (R104). -/
def ctmp (p : Params) : Bytes := fun i => (p.cstate i >>> 4) ||| (p.cstate i <<< 4)

/-- `(256 + a - b) mod 256`, computed on integers (R105). -/
def subByte (a b : Byte) : Byte := BitVec.ofNat 8 ((256 + a.toNat - b.toNat) % 256)

/-- Step e, the subtraction of the static mask, byte by byte with no borrow between bytes (R105). -/
def subMask (p : Params) (x : Bytes) : Bytes := fun i => subByte (x i) (ctmp p i)

/-- `DECRYPT(d)`: steps a to e (R100). -/
def decrypt (p : Params) (d : Bytes) : Bytes := subMask p (rotate3 (xorKey p (permute d)))

/-- `DECRYPT` of a packed frame (R100, R42). -/
def decryptWord (p : Params) (w : Word) : Word := pack (decrypt p (unpack w))

/-- `(a + b) mod 256`, computed on integers (R106). -/
def addByte (a b : Byte) : Byte := BitVec.ofNat 8 ((a.toNat + b.toNat) % 256)

/-- Undoes step e (R106). -/
def addMask (p : Params) (x : Bytes) : Bytes := fun i => addByte (x i) (ctmp p i)

/-- Undoes step c: `((phase3[i] << 3) | (phase3[(i+1) mod 8] >> 5)) & 0xFF` (R106). -/
def unrotate3 (x : Bytes) : Bytes := fun i => (x i <<< 3) ||| (x (i + 1) >>> 5)

/-- Undoes step a: `d[i] = phase1[SHUFFLE[i]]` (R106). -/
def unpermute (x : Bytes) : Bytes := fun i => x (shuffle i)

/-- `E(p)`, the forward transform: no part of the block, it makes test frames (R106). -/
def obfuscate (p : Params) (x : Bytes) : Bytes := unpermute (xorKey p (unrotate3 (addMask p x)))

/-- `E` of a packed frame (R106, R42). -/
def obfuscateWord (p : Params) (w : Word) : Word := pack (obfuscate p (unpack w))

/-- `ROR64(w, n)` for `0 < n < 64`: `((w >> n) | (w << (64-n))) & (2^64-1)` (R8). -/
def ror64 (w : Word) (n : Nat) : Word := (w >>> n) ||| (w <<< (64 - n))

/-- `bytewise_sub`: each byte lane modulo 256, no borrow between lanes (R108). -/
def bytewiseSub (a b : Word) : Word := pack fun i => subByte (byteAt a i) (byteAt b i)

end Sys2Proof.Machine
end

