-- ==== Sys2Proof/Syntax.lean ====
section
/-! DEFINITION. The instructions: one constructor for each row of spec/opcode_table.json (30_encoding.md R68). -/

namespace Sys2Proof

/-- The block's "instructions" are frames. The first three are the classes of the raw frame the block accepts
(R90), the last four the operation classes of the checked bytes it delivers (R65, R120). -/
inductive Instr where
  /-- `PLAIN`: a frame on which `CHECK` holds, by its fields `OP`, `VHI`, `VLO`; the other bytes follow (R61). -/
  | plain (op vhi vlo : Byte)
  /-- `OBFUSCATED`: the raw packed frame; `CHECK` fails on it and holds on `DECRYPT` of it (R63). -/
  | obfuscated (d : Word)
  /-- `INVALID`: the raw packed frame; `CHECK` fails on it and on `DECRYPT` of it (R66). -/
  | invalid (d : Word)
  /-- `OP_CO2`: checked bytes whose `OP` is 0x50 (R65). -/
  | opCo2 (vhi vlo : Byte)
  /-- `OP_TEMPERATURE`: checked bytes whose `OP` is 0x42 (R65, from general knowledge). -/
  | opTemperature (vhi vlo : Byte)
  /-- `OP_HUMIDITY`: checked bytes whose `OP` is 0x41 (R65, from general knowledge). -/
  | opHumidity (vhi vlo : Byte)
  /-- `OP_OTHER`: checked bytes with any other `OP` (R65, R122). -/
  | opOther (op vhi vlo : Byte)
deriving DecidableEq, Repr

end Sys2Proof
end

