-- ==== Sys2Proof/WellFormed.lean ====
section
/-! DEFINITION. Which terms of `Instr` stand for a frame of their row (30_encoding.md R61, R63, R65, R66). -/

namespace Sys2Proof

open Sys2Proof.Machine

/-- A code that no named operation row has (30_encoding.md R65). -/
def isOtherCode (op : Byte) : Bool :=
  !(op == codeCo2) && !(op == codeTemperature) && !(op == codeHumidity)

/-- The predicate of each row of spec/opcode_table.json, under the parameters `p`. A row whose fields determine
its frame needs none. -/
def Instr.wellFormed (p : Params) : Instr → Bool
  | .plain _ _ _ => true
  | .obfuscated d => !checkWord d && checkWord (decryptWord p d)
  | .invalid d => !checkWord d && !checkWord (decryptWord p d)
  | .opCo2 _ _ => true
  | .opTemperature _ _ => true
  | .opHumidity _ _ => true
  | .opOther op _ _ => isOtherCode op

end Sys2Proof
end

