-- ==== Sys2Proof/Decode.lean ====
section
/-! DEFINITION. From the bits of a frame to an instruction, and back. Two places hold a frame the block reads: the
input port, whose raw frame has one of the classes `PLAIN`, `OBFUSCATED`, `INVALID` (41_decode_policy.md R90), and
the output register, whose checked bytes have one of the operation classes (30_encoding.md R65, R68). -/

namespace Sys2Proof

open Sys2Proof.Machine

/-- Why bits are not read as an instruction. -/
inductive Reject where
  /-- Not exactly 8 bytes: "There is no other length" (R60); a short read is never a frame (R46). Safe. -/
  | notEightBytes
  /-- Not checked bytes: `CHECK` fails on them, so they carry no operation class (R68). Safe. -/
  | notChecked
deriving DecidableEq, Repr

/-- The class of a raw frame: raw check first, then the check of the transformed bytes (R64, R90, R91). Total:
the three classes are disjoint and cover every frame (R95). -/
def decodeWord (p : Params) (d : Word) : Instr :=
  if checkWord d then .plain (byteAt d 0) (byteAt d 1) (byteAt d 2)
  else if checkWord (decryptWord p d) then .obfuscated d
  else .invalid d

/-- The same from the bytes in arrival order; any number of bytes but 8 is rejected by name (R46, R60). -/
def decodeBytes (p : Params) (bs : List Byte) : Except Reject Instr :=
  match bytesOfList bs with
  | some d => .ok (decodeWord p (pack d))
  | none => .error .notEightBytes

/-- The operation class of checked bytes by their code; every code is legal (R65, R122). -/
def classify (w : Word) : Instr :=
  let op := parseOp w
  if op == codeCo2 then .opCo2 (byteAt w 1) (byteAt w 2)
  else if op == codeTemperature then .opTemperature (byteAt w 1) (byteAt w 2)
  else if op == codeHumidity then .opHumidity (byteAt w 1) (byteAt w 2)
  else .opOther op (byteAt w 1) (byteAt w 2)

/-- The operation class of a word offered as checked bytes; a word that fails `CHECK` is rejected by name (R68). -/
def decodeChecked (w : Word) : Except Reject Instr :=
  if checkWord w then .ok (classify w) else .error .notChecked

/-- The packed word of an instruction: the raw frame of a frame class, the checked bytes of an operation class
(R61, R63, R66, R68). -/
def encode : Instr → Word
  | .plain op vhi vlo => plaintextWord op vhi vlo
  | .obfuscated d => d
  | .invalid d => d
  | .opCo2 vhi vlo => plaintextWord codeCo2 vhi vlo
  | .opTemperature vhi vlo => plaintextWord codeTemperature vhi vlo
  | .opHumidity vhi vlo => plaintextWord codeHumidity vhi vlo
  | .opOther op vhi vlo => plaintextWord op vhi vlo

/-- The table's number for `w` read as a packed frame: bits from `nbits` up are 0 (R42, R68). -/
def tableFrame (nbits w : Nat) : Word := BitVec.ofNat 64 (w % 2 ^ nbits)

/-- What the decoder reads from a table word offered on `in_frame`, with this block's parameters. A table word is
the packed frame itself; a row of more than 64 bits does not exist (R60). -/
def decodeTableWord (nbits w : Nat) : Option Instr :=
  if nbits ≤ 64 then
    match decodeBytes Config.params (byteList (tableFrame nbits w)) with
    | .ok i => some i
    | .error _ => none
  else none

end Sys2Proof
end

