-- ==== Sys2Proof/Machine/State.lean ====
section
/-! DEFINITION. The state of the block: its one output register stage (10_state.md R20) and what the model writes
down of its ports. Plain data. -/

namespace Sys2Proof.Machine

/-- The input ports just before one rising edge (R33): a line of a frame program (30_encoding.md R67). -/
structure PortSample where
  rst : Bool
  inValid : Bool
  inFrame : Word
  outReady : Bool
deriving DecidableEq, Repr

/-- A result: `Ok(path, op, value, bytes)` or `ChkErr(bytes)` (00_scope.md R9, 41_decode_policy.md R90). -/
inductive Result where
  | ok (path : Path) (op : Byte) (value : Value) (bytes : Word)
  | chkErr (bytes : Word)
deriving DecidableEq, Repr

/-- Why a step stops with a fault. -/
inductive Fault where
  /-- Raised when the consumer takes a result whose status pair is the reserved `(out_ok, out_path) = (0, RAW)`:
  a model that meets it "treats it as a fault of the model, not as a result" (60_exceptions.md R132, U3).
  Safe: no run from reset meets it. -/
  | reservedStatus
deriving DecidableEq, Repr

/-- Why a step gives no meaning. -/
inductive Refusal where
  /-- An instruction of the table without a meaning; none is left. Safe. -/
  | notModelled (mnemonic : String)
  /-- An edge with `rst = 0` in the power-up state: every register is unspecified before the first edge with
  `rst = 1`, "a model starts from an edge with `rst = 1`" (70_reset_and_hazards.md R150, U2). Safe. -/
  | noResetYet
deriving DecidableEq, Repr

/-- The state. The first four fields are the block's registers, its whole storage (R20); the others are the
model's own: the port samples still to come, what was transferred since the last reset (R39), the counter the
free values of the reset edge are drawn with, whether the block has been reset at all (R150), and whether a reset is
being held (R152). -/
structure State where
  /-- `r_valid` (R21). -/
  rValid : Bool
  /-- `r_ok` (R22). -/
  rOk : Bool
  /-- `r_path` (R23). -/
  rPath : Path
  /-- `r_bytes` (R24), packed (R42). -/
  rBytes : Word
  /-- The port samples of the edges to come, the next one first (R33, R67). The model's. -/
  inputs : List PortSample
  /-- The frames accepted since the last reset, in order (R39). The model's. -/
  accepted : List Word
  /-- The results the consumer has taken since the last reset, in order (R39). The model's. -/
  taken : List Result
  /-- How many edges with `rst = 0` there were: an index for free values. The model's. -/
  edges : Nat
  /-- Whether an edge with `rst = 1` has happened (R150, U2). The model's. -/
  resetSeen : Bool
  /-- Whether the last edge had `rst = 1`: a reset is being held (R152). The model's. -/
  inReset : Bool
deriving DecidableEq, Repr

/-- Right after an edge with `rst = 1` (R150). `r_valid` is the spec's; `r_ok`, `r_path` and `r_bytes` are
unspecified there and DESIGN CHOICE here (notes/assumptions/1.md): no statement rests on them. -/
def State.reset : State where
  rValid := false
  rOk := false
  rPath := .raw
  rBytes := 0#64
  inputs := []
  accepted := []
  taken := []
  edges := 0
  resetSeen := true
  inReset := true

end Sys2Proof.Machine
end

