-- ==== Sys2Proof/Machine/Ops.lean ====
section
/-! DEFINITION. The named operations over the state: the ports (10_state.md R36, R37), loading and emptying the
output register (R38), reporting a ChecksumError (60_exceptions.md R131), and the reset edge
(70_reset_and_hazards.md R150). -/

namespace Sys2Proof.Machine

/-- The ports when nobody drives a frame, a take or a reset. DESIGN CHOICE: notes/assumptions/2.md. -/
def idleSample : PortSample := { rst := false, inValid := false, inFrame := 0#64, outReady := false }

/-- A frame offered to an idle block, with the consumer ready. -/
def offerSample (d : Word) : PortSample := { rst := false, inValid := true, inFrame := d, outReady := true }

/-- The input ports just before the next edge (R33); past the end of the program they are idle. -/
def State.ports (s : State) : PortSample := s.inputs.headD idleSample

/-- The output ports (R33). -/
structure OutPorts where
  outValid : Bool
  outOk : Bool
  outPath : Bool
  outOp : Byte
  outValue : Value
  outBytes : Word
deriving DecidableEq, Repr

/-- The output ports, driven from the registers at all times (R36), also for an error (R123). -/
def State.outPorts (s : State) : OutPorts where
  outValid := s.rValid
  outOk := s.rOk
  outPath := pathBit s.rPath
  outOp := parseOp s.rBytes
  outValue := parseValue s.rBytes
  outBytes := s.rBytes

/-- `in_ready = (r_valid = 0) OR (out_ready = 1)` (R37); `rst` does not enter it. -/
def inReady (s : State) (p : PortSample) : Bool := !s.rValid || p.outReady

/-- `in_fire = in_valid AND in_ready AND NOT rst` (R38). -/
def inFire (s : State) (p : PortSample) : Bool := p.inValid && inReady s p && !p.rst

/-- `out_fire = r_valid AND out_ready AND NOT rst` (R38). -/
def outFire (s : State) (p : PortSample) : Bool := s.rValid && p.outReady && !p.rst

/-- The result the output register holds, as the consumer reads it from the ports (R36, R38, R123). -/
def heldResult (s : State) : Result :=
  if s.rOk then .ok s.rPath (parseOp s.rBytes) (parseValue s.rBytes) s.rBytes
  else .chkErr s.rBytes

/-- The result still to be taken: none or one (R35). -/
def pendingResults (s : State) : List Result := if s.rValid then [heldResult s] else []

/-- Loads a DecodedRecord: `r_ok <- 1`, and the path and the checked bytes (R38, R90). -/
def loadRecord (path : Path) (bytes : Word) (s : State) : State :=
  { s with rValid := true, rOk := true, rPath := path, rBytes := bytes }

/-- The block's one exception, reported as a result: `r_ok <- 0`, `r_path <- XF` and the transformed bytes
(R93, R98, R131). It saves nothing, redirects nothing and does not stop the block (R131, R138); there is no
return from it (R139). -/
def raiseChecksumError (bytes : Word) (s : State) : State :=
  { s with rValid := true, rOk := false, rPath := .xf, rBytes := bytes }

/-- The consumer takes a result: the register is emptied and its other fields keep their values (R38). -/
def takeResult (r : Result) (s : State) : State :=
  { s with rValid := false, taken := s.taken ++ [r] }

/-- The edge uses up one port sample. -/
def consumeSample (s : State) : State := { s with inputs := s.inputs.tail }

/-- An edge with `rst = 0` is counted; it ends a reset. -/
def countEdge (s : State) : State := { s with edges := s.edges + 1, inReset := false }

/-- Writes down that a frame is accepted at this edge (R39). -/
def recordAccept (d : Word) (s : State) : State := { s with accepted := s.accepted ++ [d] }

/-- Puts a port sample before the ones to come. -/
def pushSample (p : PortSample) (s : State) : State := { s with inputs := p :: s.inputs }

/-- What an edge with `rst = 1` leaves in a register the spec says is unspecified after it: the first edge of a reset
keeps the value or gives it any value (R150, U1: the free value), and a further edge changes nothing (R152). -/
def resetValue {α : Type} (held : Bool) (free : Option α) (old : α) : α := if held then old else free.getD old

/-- The registers at an edge with `rst = 1`: `r_valid <- 0`, each other register as `resetValue` says. A pending
result is lost, and the record of transfers starts anew (R39, R151). -/
def resetEdge (s : State) : State :=
  { s with
    rValid := false
    rOk := resetValue s.inReset (Config.resetOk s.edges) s.rOk
    rPath := resetValue s.inReset ((Config.resetPath s.edges).map pathOfBit) s.rPath
    rBytes := resetValue s.inReset (Config.resetBytes s.edges) s.rBytes
    accepted := []
    taken := []
    resetSeen := true
    inReset := true }

end Sys2Proof.Machine
end

