-- ==== Sys2Proof/Machine/FrameClass.lean ====
section
/-! DEFINITION. The frame classes `PLAIN`, `OBFUSCATED`, `INVALID`: what accepting such a frame loads into the output
register (41_decode_policy.md R90, 10_state.md R38). -/

namespace Sys2Proof.Machine

/-- `PLAIN`: `Ok(RAW, PARSE(d))`; the register takes the raw frame and the transform is not used (R90, R91). -/
def execPlain (op vhi vlo : Byte) (s : State) : Host.Outcome State Fault Refusal :=
  .next (loadRecord .raw (plaintextWord op vhi vlo) s)

/-- `OBFUSCATED`: `Ok(XF, PARSE(DECRYPT(d)))`; the transform is applied once (R90, R92). -/
def execObfuscated (d : Word) (s : State) : Host.Outcome State Fault Refusal :=
  .next (loadRecord .xf (decryptWord Config.params d) s)

/-- `INVALID`: `ChkErr(DECRYPT(d))`, carrying the transformed bytes (R90, R93, R131). -/
def execInvalid (d : Word) (s : State) : Host.Outcome State Fault Refusal :=
  .next (raiseChecksumError (decryptWord Config.params d) s)

end Sys2Proof.Machine
end

