-- ==== Sys2Proof/Machine/OpClass.lean ====
section
/-! DEFINITION. The operation classes: the consumer takes the DecodedRecord `(operation, value)` held in the output
register (43_frame_parser.md R120 to R122, 10_state.md R38). Every code is delivered alike, with its raw value. -/

namespace Sys2Proof.Machine

/-- `OP_CO2` (R65, R120, R121). -/
def execOpCo2 (vhi vlo : Byte) (s : State) : Host.Outcome State Fault Refusal :=
  .next (takeResult (.ok s.rPath codeCo2 (valueOf vhi vlo) s.rBytes) s)

/-- `OP_TEMPERATURE`: the raw value; its conversion is outside the block (R65, R122). -/
def execOpTemperature (vhi vlo : Byte) (s : State) : Host.Outcome State Fault Refusal :=
  .next (takeResult (.ok s.rPath codeTemperature (valueOf vhi vlo) s.rBytes) s)

/-- `OP_HUMIDITY`: the raw value; its conversion is outside the block (R65, R122). -/
def execOpHumidity (vhi vlo : Byte) (s : State) : Host.Outcome State Fault Refusal :=
  .next (takeResult (.ok s.rPath codeHumidity (valueOf vhi vlo) s.rBytes) s)

/-- `OP_OTHER`: "passed through, not rejected" (R65, R122). -/
def execOpOther (op vhi vlo : Byte) (s : State) : Host.Outcome State Fault Refusal :=
  .next (takeResult (.ok s.rPath op (valueOf vhi vlo) s.rBytes) s)

end Sys2Proof.Machine
end

