-- ==== Sys2Proof/Machine/Dispatch.lean ====
section
/-! DEFINITION. The meaning of every instruction, one arm each. -/

namespace Sys2Proof.Machine

def exec (i : Instr) (s : State) : Host.Outcome State Fault Refusal :=
  match i with
  | .plain op vhi vlo => Sys2Proof.Machine.execPlain op vhi vlo s
  | .obfuscated d => Sys2Proof.Machine.execObfuscated d s
  | .invalid d => Sys2Proof.Machine.execInvalid d s
  | .opCo2 vhi vlo => Sys2Proof.Machine.execOpCo2 vhi vlo s
  | .opTemperature vhi vlo => Sys2Proof.Machine.execOpTemperature vhi vlo s
  | .opHumidity vhi vlo => Sys2Proof.Machine.execOpHumidity vhi vlo s
  | .opOther op vhi vlo => Sys2Proof.Machine.execOpOther op vhi vlo s

end Sys2Proof.Machine
end

