-- ==== Sys2Proof/Machine/Edge.lean ====
section
/-! DEFINITION. The clock edge (10_state.md R38): reset first, then the take of the held result and the load of a newly
accepted frame, which may happen at one edge (60_exceptions.md R137). -/

namespace Sys2Proof.Machine

/-- `out_fire`: the consumer takes the held result. A DecodedRecord is delivered by the operation class of its checked
bytes, a ChecksumError as the error bytes, and the reserved pair is a fault of the model (R36, R38, R132). -/
def deliver (s : State) : Host.Outcome State Fault Refusal :=
  match statusOf s.rOk s.rPath with
  | .okRaw => exec (classify s.rBytes) s
  | .okXf => exec (classify s.rBytes) s
  | .chkErr => .next (takeResult (.chkErr s.rBytes) s)
  | .reserved => .fault .reservedStatus

/-- The take, where `out_fire` holds; otherwise no register changes (R38). -/
def takePhase (fire : Bool) (s : State) : Host.Outcome State Fault Refusal :=
  if fire then deliver s else .next s

/-- The load, where `in_fire` holds: the class of the frame is decoded and runs; otherwise nothing (R38, R90). -/
def loadPhase (fire : Bool) (d : Word) (s : State) : Host.Outcome State Fault Refusal :=
  if fire then exec (decodeWord Config.params d) (recordAccept d s) else .next s

/-- One rising edge with `rst = 0` after a reset. Both fires are sampled just before the edge, so the load sees the
register the take has emptied (R38). -/
def transferEdge (p : PortSample) (s : State) : Host.Outcome State Fault Refusal :=
  match takePhase (outFire s p) s with
  | .next s1 => loadPhase (inFire s p) p.inFrame s1
  | .fault f => .fault f
  | .refused r => .refused r

/-- One rising edge of `clk`: reset overrides both transfers (R38, R137, R151); before the first reset the spec gives
no meaning (R150, U2). -/
def clockEdge (s : State) : Host.Outcome State Fault Refusal :=
  if s.ports.rst then .next (resetEdge (consumeSample s))
  else if s.resetSeen then transferEdge s.ports (countEdge (consumeSample s))
  else .refused .noResetYet

end Sys2Proof.Machine
end

