-- ==== Sys2Proof/Machine/Step.lean ====
section
/-! DEFINITION. One step of the machine: one rising edge of `clk` (10_state.md R38). -/

namespace Sys2Proof.Machine

/-- One step. -/
def step (s : State) : Host.Outcome State Fault Refusal := clockEdge s

/-- The frame of a table word offered at the very next edge, with the consumer ready so that the register can take it
(R37, R38); the samples that stood there come after it. -/
def State.withFetchWord (s : State) (nbits w : Nat) : State :=
  pushSample (offerSample (tableFrame nbits w)) s

end Sys2Proof.Machine
end

