-- ==== Sys2Proof/Machine/Policy.lean ====
section
/-! DEFINITION. `DECODE`, the two-attempt policy, as one function (41_decode_policy.md R90): the reference the
frame-class instructions are held to. -/

namespace Sys2Proof.Machine

/-- The triple `(ok, path, bytes)` that `DECODE` loads into `r_ok`, `r_path`, `r_bytes` (R90). -/
structure Decoded where
  ok : Bool
  path : Path
  bytes : Word
deriving DecidableEq, Repr

/-- `DECODE(d)`: the raw bytes first, then `DECRYPT` of them, once (R90 to R93, C1, C3). -/
def decodeFrame (p : Params) (d : Word) : Decoded :=
  if checkWord d then { ok := true, path := .raw, bytes := d }
  else
    let t := decryptWord p d
    if checkWord t then { ok := true, path := .xf, bytes := t }
    else { ok := false, path := .xf, bytes := t }

end Sys2Proof.Machine
end

