-- ==== Sys2Proof/Safety.lean ====
section
/-! DEFINITION. What a safe state and a safe run are: the terms the statements use. -/

namespace Sys2Proof.Machine

/-- The result of `DECODE` in result notation (41_decode_policy.md R90). -/
def decodedResult (x : Decoded) : Result :=
  if x.ok then .ok x.path (parseOp x.bytes) (parseValue x.bytes) x.bytes else .chkErr x.bytes

/-- What a consumer reads off the output ports when it takes a result: `out_ok` first (10_state.md R36, R38,
43_frame_parser.md R123). -/
def resultOnPorts (o : OutPorts) : Result :=
  if o.outOk then .ok (pathOfBit o.outPath) o.outOp o.outValue o.outBytes else .chkErr o.outBytes

/-- A held result never has the reserved status pair (60_exceptions.md R132). -/
def StatusLegal (s : State) : Prop := s.rValid = true → statusOf s.rOk s.rPath ≠ .reserved

/-- What a held DecodedRecord carries passed `CHECK` (10_state.md R24, 41_decode_policy.md R94). -/
def HeldChecked (s : State) : Prop := s.rValid = true → s.rOk = true → checkWord s.rBytes = true

/-- The result the block owes for an accepted frame. -/
def resultOf (d : Word) : Result := decodedResult (decodeFrame Config.params d)

/-- The results taken since the last reset, and then the one still held, are `DECODE` of the frames accepted since
the last reset: same order, none lost, doubled or moved (10_state.md R39). -/
def StreamExact (s : State) : Prop :=
  s.taken ++ pendingResults s = s.accepted.map resultOf

/-- While a reset is held the block is empty and nothing has been transferred since (70_reset_and_hazards.md R150,
R151). -/
def ResetHeldEmpty (s : State) : Prop :=
  s.inReset = true → s.rValid = false ∧ s.accepted = [] ∧ s.taken = []

/-- The invariant of the block. -/
structure BlockInv (s : State) : Prop where
  statusLegal : StatusLegal s
  heldChecked : HeldChecked s
  streamExact : StreamExact s
  resetSeen : s.resetSeen = true
  resetHeldEmpty : ResetHeldEmpty s

/-- The four registers of the block, and nothing of what the model writes down beside them (10_state.md R20). -/
def SameRegisters (s t : State) : Prop :=
  s.rValid = t.rValid ∧ s.rOk = t.rOk ∧ s.rPath = t.rPath ∧ s.rBytes = t.rBytes

end Sys2Proof.Machine
end

