-- ==== Sys2Proof/Certificates/Slice0/Obligations.lean ====
section
/-! DEFINITION. The statements for the provers. Each docstring names the rules of spec/ it formalises; OBLIGATIONS.json
lists them. -/

open Sys2Proof Sys2Proof.Machine

/-- For every state after a reset whose next edge has rst = 0 and in_valid = 1: if the bytes on in_frame decode
to an instruction i, then with an empty register the step is exec of i, around which the step uses up one
port sample, counts the edge and writes down the accepted frame; with a held result that the consumer takes
at the same edge, the step is exec of i after that take. The records around exec are the model's own (logs 2
to 4). (derived: 10_state.md R38, 41_decode_policy.md R90, 60_exceptions.md R137) -/
def Obligations.StepRunsTheOfferedFrame : Prop :=
  ∀ (s : State) (i : Instr), s.resetSeen = true → s.ports.rst = false → s.ports.inValid = true →
    decodeBytes Config.params (byteList s.ports.inFrame) = .ok i →
    (s.rValid = false →
      step s = exec i (recordAccept s.ports.inFrame (countEdge (consumeSample s)))) ∧
    (s.rValid = true → s.ports.outReady = true → statusOf s.rOk s.rPath ≠ .reserved →
      step s = exec i (recordAccept s.ports.inFrame
        (takeResult (heldResult s) (countEdge (consumeSample s)))))

/-- For every state after a reset that holds a result with r_ok = 1, whose next edge has rst = 0, out_ready = 1
and offers no frame: the step is exec of the operation class of r_bytes, around which the step uses up one
port sample and counts the edge. That the take is run as an operation-class instruction is the model's
choice (log 12). (derived: 10_state.md R36, 10_state.md R38, 43_frame_parser.md R120) -/
def Obligations.StepRunsTheDeliveredRecord : Prop :=
  ∀ s : State, s.resetSeen = true → s.ports.rst = false → s.ports.inValid = false → s.ports.outReady = true →
    s.rValid = true → s.rOk = true →
    step s = exec (classify s.rBytes) (countEdge (consumeSample s))

/-- For every state after a reset with an empty register, and every table word that the decoder reads as an
instruction i, the step from the state with that word placed is exec of i, with the frame written down and
the edge counted. How a program comes to the ports is the model's choice (logs 2 and 12). (derived:
10_state.md R37, 10_state.md R38) -/
def Obligations.FetchWordRunsAtTheNextStep : Prop :=
  ∀ (s : State) (nbits w : Nat) (i : Instr), s.resetSeen = true → s.rValid = false →
    decodeTableWord nbits w = some i →
    step (s.withFetchWord nbits w) = exec i (recordAccept (tableFrame nbits w) (countEdge s))

/-- The source's scenario frame decodes to PLAIN for every parameter set; under parameters whose KEY and CSTATE
are TP1's, the frame of V-DX-1 decodes to OBFUSCATED and the all-zero frame to INVALID; as checked bytes the
plaintext frames of V-PAR-1, 2, 3 and 6 have the classes OP_CO2, OP_TEMPERATURE, OP_HUMIDITY and OP_OTHER.
R65 gives the CO2 code only: that 0x42 reads as OP_TEMPERATURE and 0x41 as OP_HUMIDITY is general knowledge
the model takes (PRESUMED, log 7). (derived: 30_encoding.md R61, 30_encoding.md R63, 30_encoding.md R65,
95_test_vectors.md Part 2) -/
def Obligations.WrittenOutWordsDecode : Prop :=
  (∀ p : Params, decodeWord p 0x500194E50D000000#64 = .plain 0x50#8 0x01#8 0x94#8) ∧
  (∀ p : Params, p.key = bytesOf 0xC4#8 0xC6#8 0xC0#8 0x92#8 0x40#8 0x23#8 0xDC#8 0x96#8 →
    p.cstate = bytesOf 0x48#8 0x74#8 0x65#8 0x6D#8 0x70#8 0x39#8 0x39#8 0x65#8 →
    decodeWord p 0x95E466208146BF4A#64 = .obfuscated 0x95E466208146BF4A#64 ∧
    decodeWord p 0x0000000000000000#64 = .invalid 0x0000000000000000#64) ∧
  decodeChecked 0x500194E50D000000#64 = .ok (.opCo2 0x01#8 0x94#8) ∧
  decodeChecked 0x4211287B0D000000#64 = .ok (.opTemperature 0x11#8 0x28#8) ∧
  decodeChecked 0x4111B2040D000000#64 = .ok (.opHumidity 0x11#8 0xB2#8) ∧
  decodeChecked 0x6E2BAD460D000000#64 = .ok (.opOther 0x6E#8 0x2B#8 0xAD#8)

/-- FRAME_BYTES is 8, and for every parameter set and every list of bytes: the decoder reads an instruction
exactly when the list has 8 bytes, rejects every other list by name, and reads the bytes of a packed frame,
byte 0 first, as that frame. (stated: R60) -/
def Obligations.FramesAreExactlyEightBytes : Prop :=
  Config.frameBytes = 8 ∧
  ∀ (p : Params) (bs : List Byte),
    ((∃ i, decodeBytes p bs = .ok i) ↔ bs.length = Config.frameBytes) ∧
    (bs.length ≠ Config.frameBytes → decodeBytes p bs = .error .notEightBytes) ∧
    ∀ w : Word, decodeBytes p (byteList w) = .ok (decodeWord p w)

/-- For every parameter set, every well-formed PLAIN, OBFUSCATED or INVALID instruction, with every operand at
every value its row admits, is what the decoder reads from the word it encodes to. (derived: 30_encoding.md
R61, 30_encoding.md R63, 30_encoding.md R66, 41_decode_policy.md R90) -/
def Obligations.DecodeOfEncodedFrame : Prop :=
  ∀ p : Params,
    (∀ op vhi vlo : Byte, decodeWord p (encode (.plain op vhi vlo)) = .plain op vhi vlo) ∧
    (∀ d : Word, (Instr.obfuscated d).wellFormed p = true →
      decodeWord p (encode (.obfuscated d)) = .obfuscated d) ∧
    (∀ d : Word, (Instr.invalid d).wellFormed p = true → decodeWord p (encode (.invalid d)) = .invalid d) ∧
    ∀ w : Word, encode (decodeWord p w) = w

/-- Every OP_CO2, OP_TEMPERATURE and OP_HUMIDITY instruction, and every OP_OTHER instruction whose code is none
of the three, is what the checked-bytes decoder reads from the word it encodes to; and whatever that decoder
reads from a word encodes to that word. The codes 0x42 and 0x41 are general knowledge (log 7). (derived:
30_encoding.md R61, 30_encoding.md R65, 30_encoding.md R68, 43_frame_parser.md R122) -/
def Obligations.DecodeOfEncodedRecord : Prop :=
  (∀ vhi vlo : Byte, decodeChecked (encode (.opCo2 vhi vlo)) = .ok (.opCo2 vhi vlo)) ∧
  (∀ vhi vlo : Byte, decodeChecked (encode (.opTemperature vhi vlo)) = .ok (.opTemperature vhi vlo)) ∧
  (∀ vhi vlo : Byte, decodeChecked (encode (.opHumidity vhi vlo)) = .ok (.opHumidity vhi vlo)) ∧
  (∀ (p : Params) (op vhi vlo : Byte), (Instr.opOther op vhi vlo).wellFormed p = true →
    decodeChecked (encode (.opOther op vhi vlo)) = .ok (.opOther op vhi vlo)) ∧
  ∀ (w : Word) (i : Instr), decodeChecked w = .ok i → encode i = w

/-- For every parameter set and every word: the instruction the decoder reads meets its row's predicate, and it
is PLAIN with the word's own bytes 0 to 2 where the word passes CHECK, OBFUSCATED with the word itself where
only DECRYPT of it passes, and INVALID with the word itself where both fail. Whatever is read from checked
bytes meets its row's predicate too and is the operation class of byte 0 with the word's own bytes 1 and 2.
That the codes 0x42 and 0x41 name two of the classes is general knowledge (PRESUMED, log 7). (derived:
41_decode_policy.md R90, 41_decode_policy.md R95, 30_encoding.md R66, 30_encoding.md R68, 43_frame_parser.md
R122) -/
def Obligations.DecodedInstructionsAreWellFormed : Prop :=
  ∀ (p : Params) (w : Word),
    (decodeWord p w).wellFormed p = true ∧
    ((checkWord w = true ∧ decodeWord p w = .plain (byteAt w 0) (byteAt w 1) (byteAt w 2)) ∨
      (checkWord w = false ∧ checkWord (decryptWord p w) = true ∧ decodeWord p w = .obfuscated w) ∨
      (checkWord w = false ∧ checkWord (decryptWord p w) = false ∧ decodeWord p w = .invalid w)) ∧
    ∀ i, decodeChecked w = .ok i → i.wellFormed p = true ∧
      ((byteAt w 0 = 0x50#8 ∧ i = .opCo2 (byteAt w 1) (byteAt w 2)) ∨
        (byteAt w 0 = 0x42#8 ∧ i = .opTemperature (byteAt w 1) (byteAt w 2)) ∨
        (byteAt w 0 = 0x41#8 ∧ i = .opHumidity (byteAt w 1) (byteAt w 2)) ∨
        i = .opOther (byteAt w 0) (byteAt w 1) (byteAt w 2))

/-- A packed word passes CHECK exactly when the sum of its three highest bytes modulo 256 equals its fourth byte
and its low 32 bits are 0x0D000000. (stated: R84) -/
def Obligations.CheckIsThePackedEquation : Prop :=
  ∀ w : Word, checkWord w = true ↔
    ((w.extractLsb' 56 8).toNat + (w.extractLsb' 48 8).toNat + (w.extractLsb' 40 8).toNat) % 256 =
      (w.extractLsb' 32 8).toNat ∧
    w.extractLsb' 0 32 = 0x0D000000#32

/-- A packed word passes CHECK exactly when it equals the plaintext frame with its OP, VHI and VLO; such a word
has 0x0D000000 in its low 32 bits and the sum of its first three bytes, modulo 256, in its fourth. (derived:
30_encoding.md R61, 40_checksum_validator.md R80) -/
def Obligations.CheckedFramesAreThePlaintextFrames : Prop :=
  ∀ w : Word,
    (checkWord w = true ↔ w = plaintextWord (byteAt w 0) (byteAt w 1) (byteAt w 2)) ∧
    (checkWord w = true → w &&& 0x00000000FFFFFFFF#64 = 0x000000000D000000#64 ∧
      byteAt w 3 = byteAt w 0 + byteAt w 1 + byteAt w 2)

/-- The number of 64-bit words that pass CHECK is 2^24. (stated: R85) -/
def Obligations.ExactlyTwoToThe24FramesPassCheck : Prop :=
  Nat.card { w : Word // checkWord w = true } = 2 ^ 24

/-- SHUFFLE is [2,4,0,7,1,6,5,3], each index appears once, and it and INV undo each other and are equal; step a
puts byte i at SHUFFLE[i], reads byte j from SHUFFLE[j], and written out is [d2,d4,d0,d7,d1,d6,d5,d3].
(stated: R101, R32) -/
def Obligations.PermutationPutsEachByteAtItsDestination : Prop :=
  (shuffle = ![2, 4, 0, 7, 1, 6, 5, 3] ∧ Function.Bijective shuffle ∧ shuffleInv = shuffle ∧
    ∀ i j : ByteIx, shuffleInv j = i ↔ shuffle i = j) ∧
  ∀ d : Bytes,
    (∀ i : ByteIx, permute d (shuffle i) = d i) ∧ (∀ j : ByteIx, permute d j = d (shuffle j)) ∧
    permute d = ![d 2, d 4, d 0, d 7, d 1, d 6, d 5, d 3]

/-- For every array and index, byte i of step c is ((x[i] >> 3) | (x[(i-1+8) mod 8] << 5)) & 0xFF on integers;
its low five bits are the top five of x[i], its high three bits the bottom three of the byte before, where
the byte before byte 0 is byte 7. (stated: R103) -/
def Obligations.RotationTakesBitsFromTwoBytes : Prop :=
  ∀ (x : Bytes) (i j : ByteIx), j.val = (i.val + 8 - 1) % 8 →
    (rotate3 x i).toNat = (((x i).toNat >>> 3) ||| ((x j).toNat <<< 5)) &&& 0xFF ∧
    (rotate3 x i).extractLsb' 0 5 = (x i).extractLsb' 3 5 ∧
    (rotate3 x i).extractLsb' 5 3 = (x j).extractLsb' 0 3

/-- For every array, packing the result of step c gives the packed array rotated right by 3 bits, by the formula
of the notation and as a bit rotation. (stated: R44) -/
def Obligations.RotationIsRor64OfThePackedWord : Prop :=
  ∀ x : Bytes, pack (rotate3 x) = ror64 (pack x) 3 ∧ pack (rotate3 x) = (pack x).rotateRight 3

/-- For every parameter set and index, the high nibble of CTMP is the low nibble of CSTATE and the low nibble
the high one; on integers it is ((CSTATE >> 4) | (CSTATE << 4)) & 0xFF. (stated: R104) -/
def Obligations.MaskIsTheNibbleSwapOfCState : Prop :=
  ∀ (p : Params) (i : ByteIx),
    (ctmp p i).extractLsb' 4 4 = (p.cstate i).extractLsb' 0 4 ∧
    (ctmp p i).extractLsb' 0 4 = (p.cstate i).extractLsb' 4 4 ∧
    (ctmp p i).toNat = (((p.cstate i).toNat >>> 4) ||| ((p.cstate i).toNat <<< 4)) &&& 0xFF

/-- For every parameter set, array and index, byte i of step e is (256 + x[i] - CTMP[i]) mod 256, which is (x[i]
- CTMP[i]) mod 256 with the non-negative remainder; it depends on no other byte of the array. (stated: R105) -/
def Obligations.MaskIsSubtractedByteByByte : Prop :=
  ∀ (p : Params) (x : Bytes) (i : ByteIx),
    (subMask p x i).toNat = (256 + (x i).toNat - (ctmp p i).toNat) % 256 ∧
    ((subMask p x i).toNat : Int) = ((x i).toNat - (ctmp p i).toNat : Int) % 256 ∧
    ∀ y : Bytes, y i = x i → subMask p y i = subMask p x i

/-- For every parameter set and every 8-byte array, DECRYPT(E(x)) = x and E(DECRYPT(x)) = x; each of the steps
a, b, c and e is a bijection, and so is DECRYPT. (stated: R106) -/
def Obligations.DecryptAndObfuscateAreInverse : Prop :=
  ∀ p : Params,
    (∀ x : Bytes, decrypt p (obfuscate p x) = x ∧ obfuscate p (decrypt p x) = x) ∧
    Function.Bijective permute ∧ Function.Bijective (xorKey p) ∧ Function.Bijective rotate3 ∧
    Function.Bijective (subMask p) ∧ Function.Bijective (decrypt p)

/-- For every parameter set and every word w that passes CHECK, DECRYPT(d) = w exactly when d = E(w); and if
that d fails CHECK, DECODE gives w on the transformed path. (derived: 30_encoding.md R63,
42_frame_deobfuscator.md R106) -/
def Obligations.EachPlaintextHasOneObfuscatedForm : Prop :=
  ∀ (p : Params) (w : Word), checkWord w = true →
    (∀ d : Word, decryptWord p d = w ↔ d = obfuscateWord p w) ∧
    (checkWord (obfuscateWord p w) = false →
      decodeFrame p (obfuscateWord p w) = { ok := true, path := .xf, bytes := w })

/-- For every parameter set and array, DECRYPT packed is the permuted bytes packed, exclusive-or the packed KEY,
rotated right by 3, minus the packed CTMP lane by lane modulo 256. (stated: R108) -/
def Obligations.DecryptOnThePackedWord : Prop :=
  ∀ (p : Params) (d : Bytes),
    pack (decrypt p d) =
      bytewiseSub (ror64 (pack ![d 2, d 4, d 0, d 7, d 1, d 6, d 5, d 3] ^^^ pack p.key) 3) (pack (ctmp p)) ∧
    ∀ (a b : Word) (i : ByteIx), byteAt (bytewiseSub a b) i = byteAt a i - byteAt b i

/-- For every parameter set, array and index i, with j the index before i modulo 8, byte i of DECRYPT is
(((d[SHUFFLE[i]] XOR KEY[i]) >> 3) | ((d[SHUFFLE[j]] XOR KEY[j]) << 5 & 0xFF)) - CTMP[i], modulo 256.
(stated: R110) -/
def Obligations.DecryptOneByte : Prop :=
  ∀ (p : Params) (d : Bytes) (i j : ByteIx), j.val = (i.val + 8 - 1) % 8 →
    ((decrypt p d i).toNat : Int) =
      ((((d (shuffle i) ^^^ p.key i).toNat >>> 3) ||| (((d (shuffle j) ^^^ p.key j).toNat <<< 5) &&& 0xFF) : Nat) -
        ((ctmp p i).toNat : Int)) % 256

/-- For every parameter set, two arrays give the same output byte i exactly when bits 7:3 of their byte
SHUFFLE[i] agree and bits 2:0 of their byte SHUFFLE[i-1] agree. (derived: 42_frame_deobfuscator.md R109) -/
def Obligations.OutputByteDependsOnTwoInputBytes : Prop :=
  ∀ (p : Params) (d e : Bytes) (i j : ByteIx), j.val = (i.val + 8 - 1) % 8 →
    (decrypt p d i = decrypt p e i ↔
      (d (shuffle i)).extractLsb' 3 5 = (e (shuffle i)).extractLsb' 3 5 ∧
      (d (shuffle j)).extractLsb' 0 3 = (e (shuffle j)).extractLsb' 0 3)

/-- For every parameter set, array, byte and bit, flipping that bit of that byte changes exactly one byte of
DECRYPT. R109 says one or two; exactly one is a sharper inference of this model from R103 and R105.
(derived: 42_frame_deobfuscator.md R109) -/
def Obligations.OneFlippedBitChangesOneOutputByte : Prop :=
  ∀ (p : Params) (d : Bytes) (k : ByteIx) (b : Fin 8),
    ∃ i : ByteIx,
      decrypt p (Function.update d k (d k ^^^ (1#8 <<< b.val))) i ≠ decrypt p d i ∧
      ∀ j : ByteIx, j ≠ i → decrypt p (Function.update d k (d k ^^^ (1#8 <<< b.val))) j = decrypt p d j

/-- For every parameter set and every frame that passes CHECK, DECODE is (1, RAW, d), and its result is the
record (d[0], (d[1] << 8) | d[2]) on the raw path. (stated: R91) -/
def Obligations.RawPassDecodesRaw : Prop :=
  ∀ (p : Params) (d : Word), checkWord d = true →
    decodeFrame p d = { ok := true, path := .raw, bytes := d } ∧
    decodedResult (decodeFrame p d) =
      .ok .raw (byteAt d 0) (((byteAt d 1).setWidth 16 <<< 8) ||| (byteAt d 2).setWidth 16) d

/-- For every parameter set and frame that fails CHECK while DECRYPT of it passes, the bytes of DECODE are
DECRYPT of the frame, applied once, and DECODE equals DECODE of those bytes except that the path is XF.
(stated: R92) -/
def Obligations.TransformedPassDecodesOnce : Prop :=
  ∀ (p : Params) (d : Word), checkWord d = false → checkWord (decryptWord p d) = true →
    (decodeFrame p d).bytes = decryptWord p d ∧
    decodeFrame p d = { decodeFrame p (decryptWord p d) with path := .xf } ∧
    (decodeFrame p (decryptWord p d)).path = .raw

/-- For every parameter set and frame for which CHECK fails on it and on DECRYPT of it, the result of DECODE is
ChkErr(DECRYPT(d)). (stated: R93) -/
def Obligations.BothFailGivesTheTransformedBytes : Prop :=
  ∀ (p : Params) (d : Word), checkWord d = false → checkWord (decryptWord p d) = false →
    decodeFrame p d = { ok := false, path := .xf, bytes := decryptWord p d } ∧
    decodedResult (decodeFrame p d) = .chkErr (decryptWord p d)

/-- For every parameter set and frame, an error of DECODE carries path XF, and the status pair is never the
reserved one. (stated: R98) -/
def Obligations.DecodeNeverGivesTheReservedPair : Prop :=
  ∀ (p : Params) (d : Word),
    ((decodeFrame p d).ok = false → (decodeFrame p d).path = .xf) ∧
    statusOf (decodeFrame p d).ok (decodeFrame p d).path ≠ .reserved

/-- For every parameter set and frame with ok = 1, the bytes pass CHECK, byte 3 is the sum of bytes 0 to 2
modulo 256 and bytes 4 to 7 are 0D 00 00 00; and ok = 1 exactly when one of the two attempts passes.
(derived: 41_decode_policy.md R94, 43_frame_parser.md R124) -/
def Obligations.OkResultsCarryCheckedBytes : Prop :=
  ∀ (p : Params) (d : Word),
    ((decodeFrame p d).ok = true → checkWord (decodeFrame p d).bytes = true ∧
      byteAt (decodeFrame p d).bytes 3 =
        byteAt (decodeFrame p d).bytes 0 + byteAt (decodeFrame p d).bytes 1 + byteAt (decodeFrame p d).bytes 2 ∧
      (decodeFrame p d).bytes.extractLsb' 0 32 = 0x0D000000#32) ∧
    ((decodeFrame p d).ok = true ↔ checkWord d = true ∨ checkWord (decryptWord p d) = true)

/-- For every parameter set: the number of frames that pass only after DECRYPT plus the number that pass both
attempts is 2^24, and the plaintext, obfuscated and invalid frames together are 2^64. (derived:
41_decode_policy.md R99, 40_checksum_validator.md R85, 42_frame_deobfuscator.md R106) -/
def Obligations.FrameClassesCountTheFrames : Prop :=
  ∀ p : Params,
    Nat.card { d : Word // checkWord d = false ∧ checkWord (decryptWord p d) = true } +
      Nat.card { d : Word // checkWord d = true ∧ checkWord (decryptWord p d) = true } = 2 ^ 24 ∧
    Nat.card { d : Word // checkWord d = true } +
      Nat.card { d : Word // checkWord d = false ∧ checkWord (decryptWord p d) = true } +
      Nat.card { d : Word // checkWord d = false ∧ checkWord (decryptWord p d) = false } = 2 ^ 64

/-- For any two parameter sets, a frame that passes CHECK decodes to the same triple under both; and two
parameter sets with the same CSTATE whose keys differ in any byte decode no frame to the same bytes unless
it passes CHECK. R154 says "in general": that every frame which fails CHECK gets other bytes is a sharper
inference of this model from R90 and from R102 to R106 (the steps after the exclusive-or with KEY are
bijections). (derived: 70_reset_and_hazards.md R154, 41_decode_policy.md R90, 41_decode_policy.md R91,
42_frame_deobfuscator.md R102, 42_frame_deobfuscator.md R103, 42_frame_deobfuscator.md R104,
42_frame_deobfuscator.md R105, 42_frame_deobfuscator.md R106) -/
def Obligations.PlaintextDecodesTheSameUnderAnyKey : Prop :=
  ∀ (p q : Params) (d : Word),
    (checkWord d = true → decodeFrame p d = decodeFrame q d) ∧
    (checkWord d = false → p.cstate = q.cstate →
      ((decodeFrame p d).bytes = (decodeFrame q d).bytes ↔ p.key = q.key))

/-- For every packed word, PARSE_OP is bits 63:56; PARSE_VALUE is bits 55:40, which is byte 1 shifted left by 8
at 16 bits or byte 2, unsigned: 256 times byte 1 plus byte 2. (stated: R43, R121) -/
def Obligations.ParseReadsContiguousFields : Prop :=
  ∀ w : Word,
    parseOp w = w.extractLsb' 56 8 ∧
    parseValue w = w.extractLsb' 40 16 ∧
    parseValue w = ((byteAt w 1).setWidth 16 <<< 8) ||| (byteAt w 2).setWidth 16 ∧
    (parseValue w).toNat = 256 * (byteAt w 1).toNat + (byteAt w 2).toNat

/-- In every state, out_valid, out_ok, out_path and out_bytes are the registers, out_op is r_bytes[63:56] and
out_value r_bytes[55:40], whatever r_ok is; in_ready is 1 exactly when r_valid = 0 or out_ready = 1,
whatever rst is. While r_valid = 0, U5 gives the ports other than out_valid any value, and that they show
the registers there too is the model's reading of R36's "at all times" (DEDUCED, log 9). (derived:
10_state.md R36, 10_state.md R37, 93_implementation_defined.md U5) -/
def Obligations.OutputPortsShowTheRegisters : Prop :=
  ∀ (s : State) (q : PortSample),
    s.outPorts.outValid = s.rValid ∧ s.outPorts.outOk = s.rOk ∧
    (s.outPorts.outPath = true ↔ s.rPath = .xf) ∧ s.outPorts.outBytes = s.rBytes ∧
    s.outPorts.outOp = s.rBytes.extractLsb' 56 8 ∧ s.outPorts.outValue = s.rBytes.extractLsb' 40 16 ∧
    (inReady s q = true ↔ s.rValid = false ∨ q.outReady = true)

/-- For every fields and state, exec of PLAIN answers the next state with r_valid = 1, r_ok = 1, r_path = RAW
and r_bytes the plaintext frame of the fields; every other field of the state is unchanged. (derived:
41_decode_policy.md R90, 41_decode_policy.md R91, 10_state.md R38) -/
def Obligations.PlainLoadsTheRawFrame : Prop :=
  ∀ (op vhi vlo : Byte) (s : State),
    exec (.plain op vhi vlo) s =
      .next { s with rValid := true, rOk := true, rPath := .raw, rBytes := plaintextWord op vhi vlo }

/-- For every frame and state, exec of OBFUSCATED answers the next state with r_valid = 1, r_ok = 1, r_path = XF
and r_bytes DECRYPT of the frame under the block's parameters; every other field of the state is unchanged.
(derived: 41_decode_policy.md R90, 41_decode_policy.md R92, 10_state.md R38) -/
def Obligations.ObfuscatedLoadsTheTransformedFrame : Prop :=
  ∀ (d : Word) (s : State),
    exec (.obfuscated d) s =
      .next { s with rValid := true, rOk := true, rPath := .xf, rBytes := decryptWord Config.params d }

/-- For every frame and state, exec of INVALID answers the next state with r_valid = 1, r_ok = 0, r_path = XF
and r_bytes DECRYPT of the frame; nothing else is saved or changed. (derived: 41_decode_policy.md R93,
41_decode_policy.md R98, 60_exceptions.md R131, 60_exceptions.md R138) -/
def Obligations.InvalidReportsTheChecksumError : Prop :=
  ∀ (d : Word) (s : State),
    exec (.invalid d) s =
      .next { s with rValid := true, rOk := false, rPath := .xf, rBytes := decryptWord Config.params d }

/-- For every fields and state, exec of each operation class answers the next state with r_valid = 0 and the
record with the class's code and the big-endian value appended to the results taken, on the path and with
the bytes the register holds; every other field, the other registers among them, is unchanged. That the
record of what was taken stands in State is the model's choice (logs 3 and 12); the codes 0x42 and 0x41 are
general knowledge (log 7). (derived: 43_frame_parser.md R120, 43_frame_parser.md R121, 43_frame_parser.md
R122, 10_state.md R38) -/
def Obligations.OperationClassesDeliverTheRecord : Prop :=
  ∀ (op vhi vlo : Byte) (s : State),
    exec (.opCo2 vhi vlo) s = .next { s with
      rValid := false, taken := s.taken ++ [.ok s.rPath 0x50#8 (vhi ++ vlo) s.rBytes] } ∧
    exec (.opTemperature vhi vlo) s = .next { s with
      rValid := false, taken := s.taken ++ [.ok s.rPath 0x42#8 (vhi ++ vlo) s.rBytes] } ∧
    exec (.opHumidity vhi vlo) s = .next { s with
      rValid := false, taken := s.taken ++ [.ok s.rPath 0x41#8 (vhi ++ vlo) s.rBytes] } ∧
    exec (.opOther op vhi vlo) s = .next { s with
      rValid := false, taken := s.taken ++ [.ok s.rPath op (vhi ++ vlo) s.rBytes] }

/-- For every state and every word, exec of the operation class of the word empties the register, appends the
record (PARSE_OP, PARSE_VALUE) of the word, on the path and with the bytes the register holds, to the
results taken, and changes nothing else: no code is rejected, mapped or converted. The emptying of the
register is R38's take; that an operation class runs at the take and that what was taken is appended to a
list in State are the model's choices (logs 3 and 12). (derived: 43_frame_parser.md R122, 43_frame_parser.md
R120, 43_frame_parser.md R121, 10_state.md R38) -/
def Obligations.EveryCodeIsPassedThrough : Prop :=
  ∀ (s : State) (w : Word),
    exec (classify w) s = .next { s with
      rValid := false, taken := s.taken ++ [.ok s.rPath (parseOp w) (parseValue w) s.rBytes] }

/-- For every frame and state, exec of the instruction the frame decodes to answers the next state with r_valid
= 1 and r_ok, r_path, r_bytes the triple DECODE gives; nothing else changes. (derived: 41_decode_policy.md
R90, 41_decode_policy.md R95, 10_state.md R38) -/
def Obligations.FrameClassesRefineDecode : Prop :=
  ∀ (d : Word) (s : State),
    exec (decodeWord Config.params d) s = .next { s with
      rValid := true
      rOk := (decodeFrame Config.params d).ok
      rPath := (decodeFrame Config.params d).path
      rBytes := (decodeFrame Config.params d).bytes }

/-- For every state after a reset whose held result, if any, has a legal status pair, the step answers a next
state t that meets the same two premises again and counts as holding a reset exactly when rst = 1 (log 4).
With rst = 1, r_valid is 0. With rst = 0: if in_valid and (r_valid = 0 or out_ready), t holds DECODE of
in_frame with r_valid = 1 and the frame is written down; else, if r_valid and out_ready, only r_valid
changes, to 0; else no register changes. The consumer takes what the output ports showed just before the
edge exactly when r_valid and out_ready. The lists of transfers are the model's record (log 3). (derived:
10_state.md R37, 10_state.md R38, 60_exceptions.md R137) -/
def Obligations.StepFollowsTheClockEdgeRule : Prop :=
  ∀ s : State, s.resetSeen = true → StatusLegal s →
    ∃ t, step s = .next t ∧ t.inputs = s.inputs.tail ∧ t.resetSeen = true ∧ StatusLegal t ∧
      t.inReset = s.ports.rst ∧
      (s.ports.rst = true → t.rValid = false) ∧
      (s.ports.rst = false →
        (s.ports.inValid = true ∧ (s.rValid = false ∨ s.ports.outReady = true) →
          t.rValid = true ∧ t.rOk = (decodeFrame Config.params s.ports.inFrame).ok ∧
          t.rPath = (decodeFrame Config.params s.ports.inFrame).path ∧
          t.rBytes = (decodeFrame Config.params s.ports.inFrame).bytes ∧
          t.accepted = s.accepted ++ [s.ports.inFrame]) ∧
        (s.ports.inValid = false ∧ s.rValid = true ∧ s.ports.outReady = true →
          t.rValid = false ∧ t.rOk = s.rOk ∧ t.rPath = s.rPath ∧ t.rBytes = s.rBytes ∧
          t.accepted = s.accepted) ∧
        (s.ports.inValid = false ∧ (s.rValid = false ∨ s.ports.outReady = false) →
          SameRegisters s t ∧ t.accepted = s.accepted) ∧
        (s.rValid = true ∧ s.ports.outReady = false → SameRegisters s t ∧ t.accepted = s.accepted) ∧
        (s.rValid = true ∧ s.ports.outReady = true → t.taken = s.taken ++ [resultOnPorts s.outPorts]) ∧
        (s.rValid = false ∨ s.ports.outReady = false → t.taken = s.taken))

/-- For every state, whatever its registers hold and whether or not it was ever reset, a step with rst = 1
answers a next state with r_valid = 0, so out_valid = 0 and in_ready = 1; the frame offered at that edge is
not accepted, the held result is not taken, and the block counts as reset, with a reset held. The records of
transfers start anew (log 3); the two marks of a reset are the model's (logs 4 and 5). (derived:
70_reset_and_hazards.md R150, 70_reset_and_hazards.md R151) -/
def Obligations.ResetEdgeEmptiesTheRegister : Prop :=
  ∀ s : State, s.ports.rst = true →
    ∃ t, step s = .next t ∧ t.rValid = false ∧ t.outPorts.outValid = false ∧
      (∀ q, inReady t q = true) ∧ pendingResults t = [] ∧ t.accepted = [] ∧ t.taken = [] ∧
      t.resetSeen = true ∧ t.inReset = true ∧ t.inputs = s.inputs.tail

/-- For every state whose next two edges have rst = 1, both steps answer next states, the first already has
r_valid = 0, and the second leaves all four registers as the first left them. (stated: R152) -/
def Obligations.LongerResetChangesNothingElse : Prop :=
  ∀ (s : State) (q r : PortSample) (rest : List PortSample), s.inputs = q :: r :: rest →
    q.rst = true → r.rst = true →
    ∃ t u, step s = .next t ∧ step t = .next u ∧ t.rValid = false ∧ u.rValid = false ∧ SameRegisters t u

/-- For every state before the first edge with rst = 1, a step with rst = 0 is refused by name; and every step
that answers a next state leads to a state after a reset. This is the model's choice for U2 (log 5).
(derived: 70_reset_and_hazards.md R150, 93_implementation_defined.md U2) -/
def Obligations.EdgeBeforeTheFirstResetIsRefused : Prop :=
  (∀ s : State, s.resetSeen = false → s.ports.rst = false → step s = .refused .noResetYet) ∧
  ∀ s t : State, step s = .next t → t.resetSeen = true

/-- For every state after a reset that holds a result with r_ok = 0 and r_path = RAW, a step with rst = 0 and
out_ready = 1 faults by name, whatever is offered at the input. That the fault comes at the take is the
model's choice (log 8). (derived: 60_exceptions.md R132, 93_implementation_defined.md U3) -/
def Obligations.ReservedPairFaultsWhenTaken : Prop :=
  ∀ s : State, s.resetSeen = true → s.rValid = true → s.rOk = false → s.rPath = .raw →
    s.ports.rst = false → s.ports.outReady = true → step s = .fault .reservedStatus

/-- For every state after a reset that holds a ChecksumError, whose next edge takes it and offers a frame: the
step answers a next state in which the error, with the bytes the register held, is the last result taken and
the register holds DECODE of the offered frame. (derived: 60_exceptions.md R131, 60_exceptions.md R135,
20_memory.md R51) -/
def Obligations.ErrorIsDeliveredAndTheBlockGoesOn : Prop :=
  ∀ s : State, s.resetSeen = true → s.rValid = true → s.rOk = false → s.rPath = .xf →
    s.ports.rst = false → s.ports.outReady = true → s.ports.inValid = true →
    ∃ t, step s = .next t ∧ t.taken = s.taken ++ [.chkErr s.rBytes] ∧ t.rValid = true ∧
      heldResult t = resultOf s.ports.inFrame

/-- For every state after a reset that holds a result, a step with rst = 0 and out_ready = 0 answers a next
state with the same registers and output ports, and nothing accepted or taken, whether or not a frame is
offered. (derived: 70_reset_and_hazards.md R158, 10_state.md R35) -/
def Obligations.HeldResultStaysOnThePorts : Prop :=
  ∀ s : State, s.resetSeen = true → s.rValid = true → s.ports.rst = false → s.ports.outReady = false →
    ∃ t, step s = .next t ∧ SameRegisters s t ∧ t.outPorts = s.outPorts ∧
      t.accepted = s.accepted ∧ t.taken = s.taken

/-- For every state after a reset with r_valid = 0, a step with rst = 0 and in_valid = 0 answers a next state
with r_valid = 0, the same registers, and nothing accepted or taken. (derived: 60_exceptions.md R146) -/
def Obligations.IdleBlockChangesNoRegister : Prop :=
  ∀ s : State, s.resetSeen = true → s.rValid = false → s.ports.rst = false → s.ports.inValid = false →
    ∃ t, step s = .next t ∧ t.rValid = false ∧ SameRegisters s t ∧ t.accepted = s.accepted ∧ t.taken = s.taken

/-- For every state after a reset with a legal status pair whose next edge accepts a frame: after LATENCY = 1
steps the block shows out_valid = 1 and DECODE of that frame on the ports; and if the edge after that has
rst = 0 and out_ready = 1, the consumer takes that result then. (derived: 70_reset_and_hazards.md R160,
00_scope.md R6) -/
def Obligations.ResultIsOnThePortsAfterLatency : Prop :=
  ∀ s : State, s.resetSeen = true → StatusLegal s → inFire s s.ports = true →
    Config.latency = 1 ∧
    ∃ t, Host.Core.run Sys2Proof.core Config.latency s = .next t ∧ t.outPorts.outValid = true ∧
      resultOnPorts t.outPorts = resultOf s.ports.inFrame ∧
      (t.ports.rst = false → t.ports.outReady = true →
        ∃ u, step t = .next u ∧ u.taken = t.taken ++ [resultOf s.ports.inFrame])

/-- For every list of frames and every state after a reset with an empty register whose next port samples offer
those frames one an edge with out_ready = 1: after as many steps as frames, all are accepted in order, all
results but the last are taken in order, and the last is held. (derived: 70_reset_and_hazards.md R160,
10_state.md R39, 20_memory.md R50) -/
def Obligations.FullThroughputStream : Prop :=
  ∀ (ds : List Word) (rest : List PortSample) (s : State), s.resetSeen = true → s.rValid = false →
    s.inputs = ds.map offerSample ++ rest →
    ∃ t, Host.Core.run Sys2Proof.core ds.length s = .next t ∧ t.inputs = rest ∧
      t.accepted = s.accepted ++ ds ∧
      t.taken = s.taken ++ ds.dropLast.map resultOf ∧
      pendingResults t = ds.getLast?.toList.map resultOf

/-- For any two states after a reset with legal status pairs, whatever their registers, transfers and later
inputs: if both accept a frame at the next edge and the two frames are equal, then both steps answer next
states whose four registers are equal; and if two states have the same registers and the same next port
sample with rst = 0, their next registers are equal too. (derived: 20_memory.md R51, 41_decode_policy.md
R96, 70_reset_and_hazards.md R156) -/
def Obligations.ResultDependsOnTheFrameOnly : Prop :=
  (∀ s s' : State, s.resetSeen = true → s'.resetSeen = true → StatusLegal s → StatusLegal s' →
    inFire s s.ports = true → inFire s' s'.ports = true → s.ports.inFrame = s'.ports.inFrame →
    ∃ t t', step s = .next t ∧ step s' = .next t' ∧ SameRegisters t t') ∧
  ∀ s s' : State, s.resetSeen = true → s'.resetSeen = true → StatusLegal s → SameRegisters s s' →
    s.ports = s'.ports → s.ports.rst = false →
    ∃ t t', step s = .next t ∧ step s' = .next t' ∧ SameRegisters t t'

/-- For every state that meets the invariant (a held result has a legal status pair; a held DecodedRecord passed
CHECK; the results taken since the last reset and then the one held are DECODE of the frames accepted since
the last reset, in the same order; the block was reset; while a reset is held the block is empty with
nothing transferred), if a step answers a next state then that state meets the invariant. (derived:
10_state.md R39, 10_state.md R24, 60_exceptions.md R132, 20_memory.md R50) -/
def Obligations.EveryStepKeepsTheStream : Prop :=
  ∀ s t : State, BlockInv s → step s = .next t → BlockInv t

/-- State.reset meets the invariant, r_valid is 0, out_valid is 0 and in_ready is 1. (derived:
70_reset_and_hazards.md R150) -/
def Obligations.ResetStateMeetsTheInvariant : Prop :=
  BlockInv State.reset ∧ State.reset.rValid = false ∧ State.reset.outPorts.outValid = false ∧
    ∀ q, inReady State.reset q = true

/-- For every number of steps and every state that meets the invariant, whatever port samples it holds, the run
answers a next state that meets the invariant: no frame, error or reset stops the block, and the reserved
pair is never met. (derived: 60_exceptions.md R131, 60_exceptions.md R132, 60_exceptions.md R135,
41_decode_policy.md R95) -/
def Obligations.NoRunStops : Prop :=
  ∀ (k : Nat) (s : State), BlockInv s →
    ∃ t, Host.Core.run Sys2Proof.core k s = .next t ∧ BlockInv t

/-- For every list of port samples with rst = 1 and every state whose last edge had rst = 1 and whose r_valid is
0: a run over those samples answers a next state with the same four registers, which again counts as holding
a reset; the state after the first edge of a reset is such a state, whatever the state before it, and so is
State.reset. The mark that a reset is held is the model's (log 4); no register's value is relied on.
(derived: 70_reset_and_hazards.md R150, 70_reset_and_hazards.md R152) -/
def Obligations.HeldResetKeepsEveryRegister : Prop :=
  (∀ (rs rest : List PortSample) (s : State), (∀ r ∈ rs, r.rst = true) →
    s.inReset = true → s.rValid = false → s.inputs = rs ++ rest →
    ∃ t, Host.Core.run Sys2Proof.core rs.length s = .next t ∧ SameRegisters s t ∧ t.inReset = true ∧
      t.inputs = rest) ∧
  (∀ s : State, s.ports.rst = true → ∃ t, step s = .next t ∧ t.inReset = true ∧ t.rValid = false) ∧
  State.reset.inReset = true ∧ State.reset.rValid = false
end

