-- ==== Sys2Proof/Laws/Frame.lean ====
section
/-! SUPPORT. Packing and unpacking are inverse, and what the fields of a plaintext frame are (20_memory.md R42,
30_encoding.md R61). -/

namespace Sys2Proof.Machine

/-- A statement about every byte index follows from the eight. -/
theorem forall_byteIx {P : ByteIx → Prop} (h0 : P 0) (h1 : P 1) (h2 : P 2) (h3 : P 3) (h4 : P 4) (h5 : P 5)
    (h6 : P 6) (h7 : P 7) : ∀ i, P i := by
  intro i
  fin_cases i <;> assumption

/-- Bit `j` of byte `i` of a packed frame is bit `56 - 8i + j` of the word (R42). -/
theorem getLsbD_byteAt (w : Word) (i : ByteIx) (j : Nat) :
    (byteAt w i).getLsbD j = (decide (j < 8) && w.getLsbD (56 - 8 * i.val + j)) := by
  simp [byteAt]

/-- Packing a frame and reading a byte gives that byte (R42). -/
@[simp] theorem byteAt_pack (d : Bytes) (i : ByteIx) : byteAt (pack d) i = d i := by
  apply BitVec.eq_of_getLsbD_eq
  intro j hj
  rw [getLsbD_byteAt]
  revert i
  refine forall_byteIx ?_ ?_ ?_ ?_ ?_ ?_ ?_ ?_ <;>
    (simp only [pack, BitVec.getLsbD_append, hj]; interval_cases j <;> simp)

@[simp] theorem unpack_pack (d : Bytes) : unpack (pack d) = d := funext (byteAt_pack d)

/-- A word is the packing of its bytes (R42). -/
@[simp] theorem pack_unpack (w : Word) : pack (unpack w) = w := by
  apply BitVec.eq_of_getLsbD_eq
  intro j hj
  simp only [pack, unpack, BitVec.getLsbD_append, getLsbD_byteAt]
  interval_cases j <;> simp

/-- Two packed frames with the same bytes are equal (R42). -/
theorem eq_of_byteAt {v w : Word} (h : ∀ i, byteAt v i = byteAt w i) : v = w := by
  rw [← pack_unpack v, ← pack_unpack w]
  exact congrArg pack (funext h)

section Fields

variable (op vhi vlo : Byte)

@[simp] theorem byteAt_plaintextWord_op : byteAt (plaintextWord op vhi vlo) 0 = op := by simp [plaintextWord, bytesOf]
@[simp] theorem byteAt_plaintextWord_vhi : byteAt (plaintextWord op vhi vlo) 1 = vhi := by simp [plaintextWord, bytesOf]
@[simp] theorem byteAt_plaintextWord_vlo : byteAt (plaintextWord op vhi vlo) 2 = vlo := by simp [plaintextWord, bytesOf]
@[simp] theorem byteAt_plaintextWord_sum :
    byteAt (plaintextWord op vhi vlo) 3 = sumByte op vhi vlo := by simp [plaintextWord, bytesOf]

/-- A plaintext frame passes `CHECK` (R61, R80). -/
@[simp] theorem checkWord_plaintextWord : checkWord (plaintextWord op vhi vlo) = true := by
  simp [checkWord, plaintextWord, check, sumOk, trailerOk, bytesOf]

end Fields

/-- `CHECK` says what each of its equalities says (R80 to R82). -/
theorem check_eq_true {d : Bytes} :
    check d = true ↔ sumByte (d 0) (d 1) (d 2) = d 3 ∧ d 4 = trailer4 ∧ d 5 = trailer567 ∧ d 6 = trailer567 ∧
      d 7 = trailer567 := by
  simp [check, sumOk, trailerOk, and_assoc]

end Sys2Proof.Machine
end

