-- ==== Sys2Proof/Laws/State.lean ====
section
/-! SUPPORT. One lemma per field per update of the state, all true by `rfl`, so that no later proof unfolds a record
update. -/

namespace Sys2Proof.Machine

variable (s : State)

/-! ### `loadRecord` -/

@[simp] theorem loadRecord_rValid (path : Path) (w : Word) : (loadRecord path w s).rValid = true := rfl
@[simp] theorem loadRecord_rOk (path : Path) (w : Word) : (loadRecord path w s).rOk = true := rfl
@[simp] theorem loadRecord_rPath (path : Path) (w : Word) : (loadRecord path w s).rPath = path := rfl
@[simp] theorem loadRecord_rBytes (path : Path) (w : Word) : (loadRecord path w s).rBytes = w := rfl
@[simp] theorem loadRecord_inputs (path : Path) (w : Word) : (loadRecord path w s).inputs = s.inputs := rfl
@[simp] theorem loadRecord_accepted (path : Path) (w : Word) :
    (loadRecord path w s).accepted = s.accepted := rfl
@[simp] theorem loadRecord_taken (path : Path) (w : Word) : (loadRecord path w s).taken = s.taken := rfl
@[simp] theorem loadRecord_edges (path : Path) (w : Word) : (loadRecord path w s).edges = s.edges := rfl
@[simp] theorem loadRecord_resetSeen (path : Path) (w : Word) :
    (loadRecord path w s).resetSeen = s.resetSeen := rfl
@[simp] theorem loadRecord_inReset (path : Path) (w : Word) : (loadRecord path w s).inReset = s.inReset := rfl

/-! ### `raiseChecksumError` -/

@[simp] theorem raiseChecksumError_rValid (w : Word) : (raiseChecksumError w s).rValid = true := rfl
@[simp] theorem raiseChecksumError_rOk (w : Word) : (raiseChecksumError w s).rOk = false := rfl
@[simp] theorem raiseChecksumError_rPath (w : Word) : (raiseChecksumError w s).rPath = .xf := rfl
@[simp] theorem raiseChecksumError_rBytes (w : Word) : (raiseChecksumError w s).rBytes = w := rfl
@[simp] theorem raiseChecksumError_inputs (w : Word) : (raiseChecksumError w s).inputs = s.inputs := rfl
@[simp] theorem raiseChecksumError_accepted (w : Word) : (raiseChecksumError w s).accepted = s.accepted := rfl
@[simp] theorem raiseChecksumError_taken (w : Word) : (raiseChecksumError w s).taken = s.taken := rfl
@[simp] theorem raiseChecksumError_edges (w : Word) : (raiseChecksumError w s).edges = s.edges := rfl
@[simp] theorem raiseChecksumError_resetSeen (w : Word) :
    (raiseChecksumError w s).resetSeen = s.resetSeen := rfl
@[simp] theorem raiseChecksumError_inReset (w : Word) : (raiseChecksumError w s).inReset = s.inReset := rfl

/-! ### `takeResult` -/

@[simp] theorem takeResult_rValid (r : Result) : (takeResult r s).rValid = false := rfl
@[simp] theorem takeResult_rOk (r : Result) : (takeResult r s).rOk = s.rOk := rfl
@[simp] theorem takeResult_rPath (r : Result) : (takeResult r s).rPath = s.rPath := rfl
@[simp] theorem takeResult_rBytes (r : Result) : (takeResult r s).rBytes = s.rBytes := rfl
@[simp] theorem takeResult_inputs (r : Result) : (takeResult r s).inputs = s.inputs := rfl
@[simp] theorem takeResult_accepted (r : Result) : (takeResult r s).accepted = s.accepted := rfl
@[simp] theorem takeResult_taken (r : Result) : (takeResult r s).taken = s.taken ++ [r] := rfl
@[simp] theorem takeResult_edges (r : Result) : (takeResult r s).edges = s.edges := rfl
@[simp] theorem takeResult_resetSeen (r : Result) : (takeResult r s).resetSeen = s.resetSeen := rfl
@[simp] theorem takeResult_inReset (r : Result) : (takeResult r s).inReset = s.inReset := rfl

/-! ### `consumeSample` -/

@[simp] theorem consumeSample_rValid : (consumeSample s).rValid = s.rValid := rfl
@[simp] theorem consumeSample_rOk : (consumeSample s).rOk = s.rOk := rfl
@[simp] theorem consumeSample_rPath : (consumeSample s).rPath = s.rPath := rfl
@[simp] theorem consumeSample_rBytes : (consumeSample s).rBytes = s.rBytes := rfl
@[simp] theorem consumeSample_inputs : (consumeSample s).inputs = s.inputs.tail := rfl
@[simp] theorem consumeSample_accepted : (consumeSample s).accepted = s.accepted := rfl
@[simp] theorem consumeSample_taken : (consumeSample s).taken = s.taken := rfl
@[simp] theorem consumeSample_edges : (consumeSample s).edges = s.edges := rfl
@[simp] theorem consumeSample_resetSeen : (consumeSample s).resetSeen = s.resetSeen := rfl
@[simp] theorem consumeSample_inReset : (consumeSample s).inReset = s.inReset := rfl

/-! ### `countEdge` -/

@[simp] theorem countEdge_rValid : (countEdge s).rValid = s.rValid := rfl
@[simp] theorem countEdge_rOk : (countEdge s).rOk = s.rOk := rfl
@[simp] theorem countEdge_rPath : (countEdge s).rPath = s.rPath := rfl
@[simp] theorem countEdge_rBytes : (countEdge s).rBytes = s.rBytes := rfl
@[simp] theorem countEdge_inputs : (countEdge s).inputs = s.inputs := rfl
@[simp] theorem countEdge_accepted : (countEdge s).accepted = s.accepted := rfl
@[simp] theorem countEdge_taken : (countEdge s).taken = s.taken := rfl
@[simp] theorem countEdge_edges : (countEdge s).edges = s.edges + 1 := rfl
@[simp] theorem countEdge_resetSeen : (countEdge s).resetSeen = s.resetSeen := rfl
@[simp] theorem countEdge_inReset : (countEdge s).inReset = false := rfl

/-! ### `recordAccept` -/

@[simp] theorem recordAccept_rValid (d : Word) : (recordAccept d s).rValid = s.rValid := rfl
@[simp] theorem recordAccept_rOk (d : Word) : (recordAccept d s).rOk = s.rOk := rfl
@[simp] theorem recordAccept_rPath (d : Word) : (recordAccept d s).rPath = s.rPath := rfl
@[simp] theorem recordAccept_rBytes (d : Word) : (recordAccept d s).rBytes = s.rBytes := rfl
@[simp] theorem recordAccept_inputs (d : Word) : (recordAccept d s).inputs = s.inputs := rfl
@[simp] theorem recordAccept_accepted (d : Word) : (recordAccept d s).accepted = s.accepted ++ [d] := rfl
@[simp] theorem recordAccept_taken (d : Word) : (recordAccept d s).taken = s.taken := rfl
@[simp] theorem recordAccept_edges (d : Word) : (recordAccept d s).edges = s.edges := rfl
@[simp] theorem recordAccept_resetSeen (d : Word) : (recordAccept d s).resetSeen = s.resetSeen := rfl
@[simp] theorem recordAccept_inReset (d : Word) : (recordAccept d s).inReset = s.inReset := rfl

/-! ### `pushSample` -/

@[simp] theorem pushSample_rValid (p : PortSample) : (pushSample p s).rValid = s.rValid := rfl
@[simp] theorem pushSample_rOk (p : PortSample) : (pushSample p s).rOk = s.rOk := rfl
@[simp] theorem pushSample_rPath (p : PortSample) : (pushSample p s).rPath = s.rPath := rfl
@[simp] theorem pushSample_rBytes (p : PortSample) : (pushSample p s).rBytes = s.rBytes := rfl
@[simp] theorem pushSample_inputs (p : PortSample) : (pushSample p s).inputs = p :: s.inputs := rfl
@[simp] theorem pushSample_accepted (p : PortSample) : (pushSample p s).accepted = s.accepted := rfl
@[simp] theorem pushSample_taken (p : PortSample) : (pushSample p s).taken = s.taken := rfl
@[simp] theorem pushSample_edges (p : PortSample) : (pushSample p s).edges = s.edges := rfl
@[simp] theorem pushSample_resetSeen (p : PortSample) : (pushSample p s).resetSeen = s.resetSeen := rfl
@[simp] theorem pushSample_inReset (p : PortSample) : (pushSample p s).inReset = s.inReset := rfl

/-! ### `resetEdge` -/

@[simp] theorem resetEdge_rValid : (resetEdge s).rValid = false := rfl
@[simp] theorem resetEdge_rOk :
    (resetEdge s).rOk = resetValue s.inReset (Config.resetOk s.edges) s.rOk := rfl
@[simp] theorem resetEdge_rPath :
    (resetEdge s).rPath = resetValue s.inReset ((Config.resetPath s.edges).map pathOfBit) s.rPath := rfl
@[simp] theorem resetEdge_rBytes :
    (resetEdge s).rBytes = resetValue s.inReset (Config.resetBytes s.edges) s.rBytes := rfl
@[simp] theorem resetEdge_inputs : (resetEdge s).inputs = s.inputs := rfl
@[simp] theorem resetEdge_accepted : (resetEdge s).accepted = [] := rfl
@[simp] theorem resetEdge_taken : (resetEdge s).taken = [] := rfl
@[simp] theorem resetEdge_edges : (resetEdge s).edges = s.edges := rfl
@[simp] theorem resetEdge_resetSeen : (resetEdge s).resetSeen = true := rfl
@[simp] theorem resetEdge_inReset : (resetEdge s).inReset = true := rfl

/-! ### What a reset edge leaves in an unspecified register -/

@[simp] theorem resetValue_held {α : Type} (free : Option α) (old : α) : resetValue true free old = old := rfl

@[simp] theorem resetValue_first {α : Type} (free : Option α) (old : α) :
    resetValue false free old = free.getD old := rfl

/-! ### What the ports read of an updated state -/

@[simp] theorem pushSample_ports (p : PortSample) : (pushSample p s).ports = p := rfl

@[simp] theorem consumeSample_pushSample (p : PortSample) : consumeSample (pushSample p s) = s := rfl

@[simp] theorem outFire_consume (p : PortSample) :
    outFire (countEdge (consumeSample s)) p = outFire s p := rfl

@[simp] theorem inFire_consume (p : PortSample) :
    inFire (countEdge (consumeSample s)) p = inFire s p := rfl

@[simp] theorem heldResult_consume : heldResult (countEdge (consumeSample s)) = heldResult s := rfl

@[simp] theorem heldResult_recordAccept (d : Word) : heldResult (recordAccept d s) = heldResult s := rfl

@[simp] theorem pendingResults_takeResult (r : Result) : pendingResults (takeResult r s) = [] := rfl

@[simp] theorem pendingResults_resetEdge : pendingResults (resetEdge s) = [] := rfl

@[simp] theorem outPorts_consume : (countEdge (consumeSample s)).outPorts = s.outPorts := rfl

end Sys2Proof.Machine
end

