-- ==== Sys2Proof/Laws/Ops.lean ====
section
/-! SUPPORT. What each shared operation of the edge can answer, said once (10_state.md R38). -/

namespace Sys2Proof.Machine

/-- Everything `deliver` can do when it answers a next state. -/
theorem deliver_next {s t : State} (h : deliver s = .next t) :
    (s.rOk = true ∧ exec (classify s.rBytes) s = .next t) ∨
      (s.rOk = false ∧ s.rPath = .xf ∧ t = takeResult (.chkErr s.rBytes) s) := by
  unfold deliver at h
  cases hok : s.rOk <;> cases hp : s.rPath <;> simp only [hok, hp, statusOf] at h
  · cases h
  · exact .inr ⟨rfl, rfl, by injection h with h; exact h.symm⟩
  · exact .inl ⟨rfl, h⟩
  · exact .inl ⟨rfl, h⟩

/-- `deliver` faults exactly on the reserved pair (60_exceptions.md R132); it never refuses. -/
theorem deliver_fault {s : State} {f : Fault} (h : deliver s = .fault f) : statusOf s.rOk s.rPath = .reserved := by
  unfold deliver at h
  cases hst : statusOf s.rOk s.rPath <;> simp only [hst] at h
  · cases hi : classify s.rBytes <;> rw [hi] at h <;> cases h
  · cases hi : classify s.rBytes <;> rw [hi] at h <;> cases h
  · cases h
  · rfl

@[simp] theorem takePhase_false (s : State) : takePhase false s = .next s := rfl
@[simp] theorem takePhase_true (s : State) : takePhase true s = deliver s := rfl
@[simp] theorem loadPhase_false (d : Word) (s : State) : loadPhase false d s = .next s := rfl
@[simp] theorem loadPhase_true (d : Word) (s : State) :
    loadPhase true d s = exec (decodeWord Config.params d) (recordAccept d s) := rfl

/-- A transfer edge is a take and then a load. -/
theorem transferEdge_next {p : PortSample} {s t : State} :
    transferEdge p s = .next t ↔
      ∃ s1, takePhase (outFire s p) s = .next s1 ∧ loadPhase (inFire s p) p.inFrame s1 = .next t := by
  unfold transferEdge
  cases takePhase (outFire s p) s <;> simp

/-- Everything a step can do when it answers a next state. -/
theorem step_next {s t : State} :
    step s = .next t ↔
      (s.ports.rst = true ∧ t = resetEdge (consumeSample s)) ∨
      (s.ports.rst = false ∧ s.resetSeen = true ∧
        transferEdge s.ports (countEdge (consumeSample s)) = .next t) := by
  unfold step clockEdge
  cases s.ports.rst <;> cases s.resetSeen <;> simp [eq_comm]

/-- A run of one step more, from its first step. -/
theorem run_succ_of_next (M : Host.Core) {k : Nat} {s t : M.State} (h : M.step s = .next t) :
    M.run (k + 1) s = M.run k t := by
  simp only [Host.Core.run, h]

/-- A run of this machine of one step more, from its first step. -/
theorem run_succ {k : Nat} {s t : State} (h : step s = .next t) :
    Host.Core.run Sys2Proof.core (k + 1) s = Host.Core.run Sys2Proof.core k t :=
  run_succ_of_next Sys2Proof.core h

/-- Accepting a frame always answers a next state, with a result held. -/
theorem loadPhase_completes (fire : Bool) (d : Word) (s : State) : ∃ t, loadPhase fire d s = .next t := by
  cases fire
  · exact ⟨s, rfl⟩
  · rw [loadPhase_true]
    unfold decodeWord
    split
    · exact ⟨_, rfl⟩
    · split <;> exact ⟨_, rfl⟩

end Sys2Proof.Machine
end

