-- ==== Sys2Proof/Laws/PerInstr.lean ====
section
/-! SUPPORT. Statements made instruction by instruction. -/

namespace Sys2Proof.Laws.EncodedCheck

open Sys2Proof.Machine

/-- Whether the frames of an instruction's row pass `CHECK` as they stand (30_encoding.md R61, R63, R66). -/
def passesAsIs : Instr → Bool
  | .plain _ _ _ => true
  | .obfuscated _ => false
  | .invalid _ => false
  | .opCo2 _ _ => true
  | .opTemperature _ _ => true
  | .opHumidity _ _ => true
  | .opOther _ _ _ => true

/-- The word a well-formed instruction encodes to passes `CHECK` exactly where its row's predicate says so. -/
def Statement (i : Instr) : Prop :=
  ∀ p : Params, i.wellFormed p = true → checkWord (encode i) = passesAsIs i

theorem plain (op vhi vlo : Byte) : Statement (.plain op vhi vlo) :=
  fun _ _ => checkWord_plaintextWord op vhi vlo

theorem obfuscated (d : Word) : Statement (.obfuscated d) := by
  intro p h
  simp only [Instr.wellFormed, Bool.and_eq_true, Bool.not_eq_true'] at h
  exact h.1

theorem invalid (d : Word) : Statement (.invalid d) := by
  intro p h
  simp only [Instr.wellFormed, Bool.and_eq_true, Bool.not_eq_true'] at h
  exact h.1

theorem opCo2 (vhi vlo : Byte) : Statement (.opCo2 vhi vlo) :=
  fun _ _ => checkWord_plaintextWord codeCo2 vhi vlo

theorem opTemperature (vhi vlo : Byte) : Statement (.opTemperature vhi vlo) :=
  fun _ _ => checkWord_plaintextWord codeTemperature vhi vlo

theorem opHumidity (vhi vlo : Byte) : Statement (.opHumidity vhi vlo) :=
  fun _ _ => checkWord_plaintextWord codeHumidity vhi vlo

theorem opOther (op vhi vlo : Byte) : Statement (.opOther op vhi vlo) :=
  fun _ _ => checkWord_plaintextWord op vhi vlo

end Sys2Proof.Laws.EncodedCheck
end

