-- ==== Sys2Proof/Laws/Transform.lean ====
section
/-! SUPPORT. What the byte functions of the transform compute, bit by bit or modulo 256 (42_frame_deobfuscator.md), and
the three cases of `DECODE` (41_decode_policy.md R90). -/

namespace Sys2Proof.Machine

/-- `SHUFFLE` is its own inverse (R32). -/
@[simp] theorem shuffle_shuffle (i : ByteIx) : shuffle (shuffle i) = i := by
  revert i
  decide

/-- Bit `j` of byte `i` after the rotation (R103). -/
theorem getLsbD_rotate3 (x : Bytes) (i : ByteIx) {j : Nat} (hj : j < 8) :
    (rotate3 x i).getLsbD j = if j < 5 then (x i).getLsbD (3 + j) else (x (i - 1)).getLsbD (j - 5) := by
  unfold rotate3
  interval_cases j <;> simp

/-- Bit `j` of byte `i` after the rotation is undone (R106). -/
theorem getLsbD_unrotate3 (x : Bytes) (i : ByteIx) {j : Nat} (hj : j < 8) :
    (unrotate3 x i).getLsbD j = if j < 3 then (x (i + 1)).getLsbD (5 + j) else (x i).getLsbD (j - 3) := by
  unfold unrotate3
  interval_cases j <;> simp

/-- The subtraction of step e is subtraction of bytes (R105). -/
theorem subByte_eq (a b : Byte) : subByte a b = a - b := by
  apply BitVec.eq_of_toNat_eq
  rw [subByte, BitVec.toNat_ofNat, BitVec.toNat_sub]
  have := b.isLt
  omega

/-- The addition that undoes step e is addition of bytes (R106). -/
theorem addByte_eq (a b : Byte) : addByte a b = a + b := by
  apply BitVec.eq_of_toNat_eq
  simp [addByte]

/-- The sum of the checksum is addition of bytes (R81). -/
theorem sumByte_eq (a b c : Byte) : sumByte a b c = a + b + c := by
  apply BitVec.eq_of_toNat_eq
  simp [sumByte]

/-- The value is its high byte before its low byte (R43). -/
theorem valueOf_eq_append (vhi vlo : Byte) : valueOf vhi vlo = vhi ++ vlo := by
  apply BitVec.eq_of_getLsbD_eq
  intro j hj
  simp only [valueOf, BitVec.getLsbD_append, BitVec.getLsbD_or, BitVec.getLsbD_shiftLeft, BitVec.getLsbD_setWidth]
  interval_cases j <;> simp

/-- Everything `DECODE` can give (R90). -/
theorem decodeFrame_cases (p : Params) (d : Word) :
    (checkWord d = true ∧ decodeFrame p d = ⟨true, .raw, d⟩) ∨
    (checkWord d = false ∧ checkWord (decryptWord p d) = true ∧ decodeFrame p d = ⟨true, .xf, decryptWord p d⟩) ∨
    (checkWord d = false ∧ checkWord (decryptWord p d) = false ∧
      decodeFrame p d = ⟨false, .xf, decryptWord p d⟩) := by
  unfold decodeFrame
  cases hd : checkWord d <;> cases ht : checkWord (decryptWord p d) <;> simp [ht]

end Sys2Proof.Machine
end

