-- ==== Sys2Proof/Tests/Slice0.lean ====
section
/-! SUPPORT. The model's own tests, with expected values from 95_test_vectors.md (its vector's name in each comment), the
smoke test of WellFormed, and a witness for each statement that has hypotheses. -/

namespace Sys2Proof.Tests

open Sys2Proof.Machine

/-- `TP0` (95_test_vectors.md, Parameter sets). -/
def tp0 : Params where
  key := bytesOf 0x00#8 0x00#8 0x00#8 0x00#8 0x00#8 0x00#8 0x00#8 0x00#8
  cstate := bytesOf 0x00#8 0x00#8 0x00#8 0x00#8 0x00#8 0x00#8 0x00#8 0x00#8

/-- `TP1`. -/
def tp1 : Params where
  key := bytesOf 0xC4#8 0xC6#8 0xC0#8 0x92#8 0x40#8 0x23#8 0xDC#8 0x96#8
  cstate := bytesOf 0x48#8 0x74#8 0x65#8 0x6D#8 0x70#8 0x39#8 0x39#8 0x65#8

/-- `TP_BP`: a plaintext frame that also passes transformed. -/
def tpBP : Params where
  key := bytesOf 0xA6#8 0xCE#8 0xA2#8 0x88#8 0xA5#8 0x9C#8 0x9A#8 0x53#8
  cstate := tp1.cstate

/-- A state after reset with the given port samples to come. -/
def feeding (ps : List PortSample) : State := { State.reset with inputs := ps }

/-- The same, holding a record on the given path. -/
def holding (path : Path) (w : Word) (ps : List PortSample) : State :=
  { loadRecord path w (feeding ps) with inReset := false }

/-- Reset asserted, with a frame offered and the consumer ready. -/
def rstSample (d : Word) : PortSample := { rst := true, inValid := true, inFrame := d, outReady := true }

/-- A frame offered while the consumer is not ready. -/
def stallSample (d : Word) : PortSample := { rst := false, inValid := true, inFrame := d, outReady := false }

/-- No frame, the consumer ready. -/
def drainSample : PortSample := { rst := false, inValid := false, inFrame := 0#64, outReady := true }

/-- The scenario frame of V-SRC-1. -/
def scenario : Word := 0x500194E50D000000#64

/-! ### WellFormed refuses an ill-formed term for each check -/

theorem test_wf_obfuscated_refuses_plaintext : (Instr.obfuscated scenario).wellFormed tp1 = false := by decide
theorem test_wf_obfuscated_refuses_garbage : (Instr.obfuscated 0#64).wellFormed tp1 = false := by decide
theorem test_wf_invalid_refuses_plaintext : (Instr.invalid scenario).wellFormed tp1 = false := by decide
theorem test_wf_invalid_refuses_obfuscated : (Instr.invalid 0x95E466208146BF4A#64).wellFormed tp1 = false := by decide
theorem test_wf_opOther_refuses_co2 : (Instr.opOther 0x50#8 0x01#8 0x94#8).wellFormed tp1 = false := by decide
theorem test_wf_opOther_refuses_temperature : (Instr.opOther 0x42#8 0x11#8 0x28#8).wellFormed tp1 = false := by decide
theorem test_wf_opOther_refuses_humidity : (Instr.opOther 0x41#8 0x11#8 0xB2#8).wellFormed tp1 = false := by decide

/-! ### Decoding: each constructor from a word written out from the encoding -/

/-- V-SRC-1: `0x50`, `0x01`, `0x94`, sum `0xE5`, trailer `0D 00 00 00`; no parameter is read. -/
theorem test_decode_plain (p : Params) : decodeWord p 0x500194E50D000000#64 = .plain 0x50#8 0x01#8 0x94#8 := rfl
/-- V-CHK-3: the sum `0x200` wraps to `0x00`. -/
theorem test_decode_plain_wrap (p : Params) : decodeWord p 0xFFFF02000D000000#64 = .plain 0xFF#8 0xFF#8 0x02#8 := rfl
/-- V-DEC-2a. -/
theorem test_decode_obfuscated : decodeWord tp1 0x95E466208146BF4A#64 = .obfuscated 0x95E466208146BF4A#64 := by decide
/-- V-DEC-4: one bit of V-DEC-2a flipped. -/
theorem test_decode_invalid : decodeWord tp1 0x95E466208146BF4B#64 = .invalid 0x95E466208146BF4B#64 := by decide
/-- V-PAR-1. -/
theorem test_decode_opCo2 : decodeChecked 0x500194E50D000000#64 = .ok (.opCo2 0x01#8 0x94#8) := rfl
/-- V-PAR-2. -/
theorem test_decode_opTemperature : decodeChecked 0x4211287B0D000000#64 = .ok (.opTemperature 0x11#8 0x28#8) := rfl
/-- V-PAR-3. -/
theorem test_decode_opHumidity : decodeChecked 0x4111B2040D000000#64 = .ok (.opHumidity 0x11#8 0xB2#8) := rfl
/-- V-PAR-6: an unrecognised code. -/
theorem test_decode_opOther : decodeChecked 0x6E2BAD460D000000#64 = .ok (.opOther 0x6E#8 0x2B#8 0xAD#8) := rfl
/-- V-CHK-8: a sum off by one is no checked frame. -/
theorem test_decode_unchecked : decodeChecked 0x500194E60D000000#64 = .error .notChecked := rfl
/-- R46, R60: seven bytes are no frame. -/
theorem test_decode_short (p : Params) :
    decodeBytes p [0x50#8, 0x01#8, 0x94#8, 0xE5#8, 0x0D#8, 0x00#8, 0x00#8] = .error .notEightBytes := rfl
/-- The table's PLAIN word. -/
theorem test_decodeTableWord_plain :
    decodeTableWord 64 0x500194E50D000000 = some (.plain 0x50#8 0x01#8 0x94#8) := by decide

/-! ### CHECK, DECRYPT, E, DECODE -/

/-- V-CHK-1 to V-CHK-13. -/
theorem test_check_vectors :
    [0x500194E50D000000#64, 0x000000000D000000#64, 0xFFFF02000D000000#64, 0x4111B2040D000000#64,
      0x4211287B0D000000#64, 0x6E2BAD460D000000#64, 0x0000000000000000#64, 0x500194E60D000000#64,
      0x500194E50C000000#64, 0x500194E50D000001#64, 0x500194E50D050500#64, 0xFFFFFFFFFFFFFFFF#64,
      0x500194E52D000000#64].map checkWord =
    [true, true, true, true, true, true, false, false, false, false, false, false, false] := by decide
/-- V-DX-1, every line of the trace. -/
theorem test_decrypt_trace_tp1 :
    pack (permute (unpack 0x95E466208146BF4A#64)) = 0x6681954AE4BF4620#64 ∧
    pack (xorKey tp1 (unpack 0x6681954AE4BF4620#64)) = 0xA24755D8A49C9AB6#64 ∧
    pack (rotate3 (unpack 0xA24755D8A49C9AB6#64)) = 0xD448EABB14939356#64 ∧
    pack (ctmp tp1) = 0x844756D607939356#64 ∧
    pack (subMask tp1 (unpack 0xD448EABB14939356#64)) = 0x500194E50D000000#64 := by decide
/-- V-DX-2 and three rows of V-DX-4 under `TP0`. -/
theorem test_decrypt_tp0 :
    decryptWord tp0 0xA76880020C000028#64 = 0x500194E50D000000#64 ∧
    decryptWord tp0 0#64 = 0#64 ∧
    decryptWord tp0 0xFFFFFFFFFFFFFFFF#64 = 0xFFFFFFFFFFFFFFFF#64 ∧
    decryptWord tp0 0x0102030405060708#64 = 0x8060A0210040E0C0#64 := by decide
/-- V-DX-3 and V-DX-4. -/
theorem test_decrypt_others :
    decryptWord tpBP scenario = 0x4211287B0D000000#64 ∧
    decryptWord tp1 0xFFFFFFFFFFFFFFFF#64 = 0xA320D117B068F117#64 ∧
    decryptWord tp1 0x0102030405060708#64 = 0xD4B1225D41B108FC#64 := by decide
/-- V-E-1, V-E-5 and the last line of V-E. -/
theorem test_obfuscate :
    obfuscateWord tp1 scenario = 0x95E466208146BF4A#64 ∧
    obfuscateWord tp0 0xFFFF02000D000000#64 = 0x1068FF07F8000000#64 ∧
    obfuscateWord tpBP scenario = 0xF70104E589000050#64 := by decide
/-- V-DEC-2b, V-DEC-3, V-DEC-5, V-DEC-6, V-DEC-7. -/
theorem test_decode_policy :
    decodedResult (decodeFrame tp1 0x32E4F6200546BF1A#64) = .ok .xf 0x42#8 0x1128#16 0x4211287B0D000000#64 ∧
    decodedResult (decodeFrame tp1 0#64) = .chkErr 0x5451823C4171E83C#64 ∧
    decodedResult (decodeFrame tpBP scenario) = .ok .raw 0x50#8 0x0194#16 scenario ∧
    decodedResult (decodeFrame tpBP 0xF70104E589000050#64) = .ok .xf 0x50#8 0x0194#16 scenario ∧
    decodedResult (decodeFrame tp0 0x95E466208146BF4A#64) = .chkErr 0x0CD032A95C97E8C4#64 := by decide

/-! ### One edge (V-HS-1 to V-HS-7 and program P3) -/

/-- P3 edge 1: an empty block accepts a raw frame. -/
theorem test_step_plain :
    step (feeding [stallSample 0x000000000D000000#64]) =
      .next { State.reset with
        rValid := true, rOk := true, rPath := .raw, rBytes := 0x000000000D000000#64
        accepted := [0x000000000D000000#64], edges := 1, inReset := false } := rfl
/-- P3 edge 2, V-HS-4: a full block does not take a frame. -/
theorem test_step_back_pressure :
    step (holding .raw scenario [stallSample 0xFFFF02000D000000#64]) =
      .next { holding .raw scenario [] with edges := 1 } := rfl
/-- P3 edge 3, V-HS-5: take and load at one edge. -/
theorem test_step_take_and_load :
    step (holding .raw scenario [offerSample 0xFFFF02000D000000#64]) =
      .next { holding .raw 0xFFFF02000D000000#64 [] with
        accepted := [0xFFFF02000D000000#64], taken := [.ok .raw 0x50#8 0x0194#16 scenario], edges := 1 } := rfl
/-- P1 edge 4, V-HS-6: the last record is taken and the data registers keep their values. -/
theorem test_step_take_humidity :
    step (holding .xf 0x4111B2040D000000#64 [drainSample]) =
      .next { holding .xf 0x4111B2040D000000#64 [] with
        rValid := false, taken := [.ok .xf 0x41#8 0x11B2#16 0x4111B2040D000000#64], edges := 1 } := rfl
/-- P2 edge 5: a temperature record is taken. -/
theorem test_step_take_temperature :
    step (holding .xf 0x4211287B0D000000#64 [drainSample]) =
      .next { holding .xf 0x4211287B0D000000#64 [] with
        rValid := false, taken := [.ok .xf 0x42#8 0x1128#16 0x4211287B0D000000#64], edges := 1 } := rfl
/-- P2 edge 3: an unrecognised code is passed through. -/
theorem test_step_take_other :
    step (holding .xf 0x6E2BAD460D000000#64 [drainSample]) =
      .next { holding .xf 0x6E2BAD460D000000#64 [] with
        rValid := false, taken := [.ok .xf 0x6E#8 0x2BAD#16 0x6E2BAD460D000000#64], edges := 1 } := rfl
/-- V-HS-7: a held result stays. -/
theorem test_step_hold :
    step (holding .raw scenario []) = .next { holding .raw scenario [] with edges := 1 } := rfl
/-- P1 edge 1 under `TP1`: what `OBFUSCATED` loads. -/
theorem test_exec_obfuscated (h : Config.params = tp1) :
    exec (.obfuscated 0x95E466208146BF4A#64) State.reset = .next (loadRecord .xf scenario State.reset) := by
  show Host.Outcome.next (loadRecord .xf (decryptWord Config.params _) _) = _
  rw [h]
  rfl
/-- P3 edge 5 under `TP1`: what `INVALID` loads. -/
theorem test_exec_invalid (h : Config.params = tp1) :
    exec (.invalid 0#64) State.reset = .next (raiseChecksumError 0x5451823C4171E83C#64 State.reset) := by
  show Host.Outcome.next (raiseChecksumError (decryptWord Config.params _) _) = _
  rw [h]
  rfl
/-- P3 edge 6, V-HS-1: reset wins over a take and a load. -/
theorem test_step_reset :
    (match step (holding .raw scenario [rstSample scenario]) with
      | .next t => t.rValid || !t.taken.isEmpty || !t.accepted.isEmpty
      | _ => true) = false := rfl
/-- R152: from the reset state, one more edge with `rst = 1` changes no register, whatever the free values are. -/
theorem test_step_reset_held :
    step (feeding [rstSample scenario]) = .next State.reset := rfl
/-- `withFetchWord` and `decodeTableWord` agree on the table's PLAIN word. -/
theorem test_withFetchWord_plain :
    step (State.reset.withFetchWord 64 0x500194E50D000000) =
      .next { State.reset with
        rValid := true, rOk := true, rPath := .raw, rBytes := scenario, accepted := [scenario], edges := 1
        inReset := false } := rfl

/-! ### A witness for the hypotheses of each statement, one for each clause where they differ -/

/-- The frame of V-DX-1, obfuscated under `TP1`. -/
def hidden : Word := 0x95E466208146BF4A#64

/-- A state that holds the ChecksumError of V-DEC-3. -/
def holdingError (ps : List PortSample) : State :=
  { raiseChecksumError 0x5451823C4171E83C#64 (feeding ps) with inReset := false }

/-- A state that holds a result with the reserved status pair: no run reaches it. -/
def holdingReserved (ps : List PortSample) : State := { holdingError ps with rPath := .raw }

/-- A power-up state: whatever the registers hold, no reset yet. -/
def powerUp (ps : List PortSample) : State := { holdingReserved ps with resetSeen := false }

/-- A state in the middle of a run: the scenario frame accepted, its record not yet taken. -/
def midRun (ps : List PortSample) : State := { holding .raw scenario ps with accepted := [scenario], edges := 1 }

theorem witness_StepRunsTheOfferedFrame :
    ((feeding [stallSample scenario]).resetSeen = true ∧ (feeding [stallSample scenario]).ports.rst = false ∧
      (feeding [stallSample scenario]).ports.inValid = true ∧ (feeding [stallSample scenario]).rValid = false) ∧
    ((holdingError [offerSample scenario]).rValid = true ∧ (holdingError [offerSample scenario]).ports.outReady = true ∧
      (holdingError [offerSample scenario]).ports.inValid = true ∧
      (holdingError [offerSample scenario]).ports.rst = false ∧
      (holdingError [offerSample scenario]).resetSeen = true ∧
      statusOf (holdingError [offerSample scenario]).rOk (holdingError [offerSample scenario]).rPath ≠ .reserved) ∧
    decodeBytes Config.params (byteList scenario) = .ok (.plain 0x50#8 0x01#8 0x94#8) :=
  ⟨by decide, by decide, rfl⟩
theorem witness_StepRunsTheDeliveredRecord :
    (holding .xf scenario [drainSample]).resetSeen = true ∧ (holding .xf scenario [drainSample]).ports.rst = false ∧
    (holding .xf scenario [drainSample]).ports.inValid = false ∧
    (holding .xf scenario [drainSample]).ports.outReady = true ∧ (holding .xf scenario [drainSample]).rValid = true ∧
    (holding .xf scenario [drainSample]).rOk = true := by decide
theorem witness_FetchWordRunsAtTheNextStep :
    State.reset.resetSeen = true ∧ State.reset.rValid = false ∧
    decodeTableWord 64 0x000000000D000000 = some (.plain 0x00#8 0x00#8 0x00#8) := by decide
theorem witness_WrittenOutWordsDecode :
    tp1.key = bytesOf 0xC4#8 0xC6#8 0xC0#8 0x92#8 0x40#8 0x23#8 0xDC#8 0x96#8 ∧
    tp1.cstate = bytesOf 0x48#8 0x74#8 0x65#8 0x6D#8 0x70#8 0x39#8 0x39#8 0x65#8 := ⟨rfl, rfl⟩
theorem witness_FramesAreExactlyEightBytes :
    (byteList scenario).length = 8 ∧ (byteList scenario).tail.length ≠ 8 ∧ (0#8 :: byteList scenario).length ≠ 8 ∧
    ([] : List Byte).length ≠ 8 := by decide
theorem witness_DecodeOfEncodedFrame :
    (Instr.obfuscated hidden).wellFormed tp1 = true ∧ (Instr.invalid 0#64).wellFormed tp1 = true := by decide
theorem witness_DecodeOfEncodedRecord :
    (Instr.opOther 0x51#8 0x01#8 0x94#8).wellFormed tp1 = true ∧
    (Instr.opOther 0x40#8 0xFF#8 0x00#8).wellFormed tp1 = true ∧
    decodeChecked scenario = .ok (.opCo2 0x01#8 0x94#8) := ⟨by decide, by decide, rfl⟩
/-- One word for each operation class, and one code beside the named ones. -/
theorem witness_DecodedInstructionsAreWellFormed :
    decodeChecked scenario = .ok (.opCo2 0x01#8 0x94#8) ∧
    decodeChecked 0x4211287B0D000000#64 = .ok (.opTemperature 0x11#8 0x28#8) ∧
    decodeChecked 0x4111B2040D000000#64 = .ok (.opHumidity 0x11#8 0xB2#8) ∧
    decodeChecked 0x4300004300000000#64 = .error .notChecked ∧
    decodeChecked 0x430000430D000000#64 = .ok (.opOther 0x43#8 0x00#8 0x00#8) := ⟨rfl, rfl, rfl, rfl, rfl⟩
theorem witness_CheckedFramesAreThePlaintextFrames : checkWord 0xFFFF02000D000000#64 = true := by decide
theorem witness_RotationTakesBitsFromTwoBytes :
    (7 : ByteIx).val = ((0 : ByteIx).val + 8 - 1) % 8 ∧ (6 : ByteIx).val = ((7 : ByteIx).val + 8 - 1) % 8 := by decide
theorem witness_DecryptOneByte : (7 : ByteIx).val = ((0 : ByteIx).val + 8 - 1) % 8 := by decide
theorem witness_OutputByteDependsOnTwoInputBytes : (0 : ByteIx).val = ((1 : ByteIx).val + 8 - 1) % 8 := by decide
theorem witness_MaskIsSubtractedByteByByte : unpack scenario 0 = unpack 0x50FFFFFFFFFFFFFF#64 0 := by decide
theorem witness_EachPlaintextHasOneObfuscatedForm :
    checkWord scenario = true ∧ checkWord (obfuscateWord tp1 scenario) = false := by decide
theorem witness_OneFlippedBitChangesOneOutputByte : (1 : ByteIx) ≠ 0 := by decide
theorem witness_RawPassDecodesRaw : checkWord scenario = true ∧ checkWord (decryptWord tpBP scenario) = true := by decide
theorem witness_TransformedPassDecodesOnce :
    checkWord hidden = false ∧ checkWord (decryptWord tp1 hidden) = true := by decide
theorem witness_BothFailGivesTheTransformedBytes :
    checkWord 0#64 = false ∧ checkWord (decryptWord tp1 0#64) = false := by decide
theorem witness_DecodeNeverGivesTheReservedPair : (decodeFrame tp1 0#64).ok = false := by decide
theorem witness_OkResultsCarryCheckedBytes :
    (decodeFrame tp1 hidden).ok = true ∧ (decodeFrame tp1 scenario).ok = true := by decide
theorem witness_PlaintextDecodesTheSameUnderAnyKey :
    checkWord scenario = true ∧ checkWord hidden = false ∧ tp1.cstate = tpBP.cstate := ⟨by decide, by decide, rfl⟩

theorem statusLegal_midRun (ps : List PortSample) : StatusLegal (midRun ps) := fun _ h => by cases h
theorem blockInv_midRun (ps : List PortSample) : BlockInv (midRun ps) :=
  ⟨statusLegal_midRun ps, fun _ _ => by show checkWord scenario = true; decide, rfl, rfl, fun h => by cases h⟩
theorem statusLegal_feeding (ps : List PortSample) : StatusLegal (feeding ps) := fun h => by cases h

/-- Each case of the rule: reset, load into an empty register, take and load, take, hold, back-pressure. -/
theorem witness_StepFollowsTheClockEdgeRule :
    (∀ ps, (midRun ps).resetSeen = true ∧ StatusLegal (midRun ps)) ∧
    (midRun [rstSample hidden]).ports.rst = true ∧
    ((feeding [stallSample hidden]).ports.rst = false ∧ (feeding [stallSample hidden]).ports.inValid = true ∧
      (feeding [stallSample hidden]).rValid = false ∧ StatusLegal (feeding [stallSample hidden])) ∧
    ((midRun [offerSample hidden]).ports.inValid = true ∧ (midRun [offerSample hidden]).ports.outReady = true) ∧
    ((midRun [drainSample]).ports.inValid = false ∧ (midRun [drainSample]).rValid = true ∧
      (midRun [drainSample]).ports.outReady = true) ∧
    ((midRun []).ports.inValid = false ∧ (midRun []).ports.outReady = false) ∧
    (midRun [stallSample hidden]).rValid = true ∧ (midRun [stallSample hidden]).ports.outReady = false :=
  ⟨fun ps => ⟨rfl, statusLegal_midRun ps⟩, rfl, ⟨rfl, rfl, rfl, statusLegal_feeding _⟩, ⟨rfl, rfl⟩, ⟨rfl, rfl, rfl⟩,
    ⟨rfl, rfl⟩, rfl, rfl⟩
theorem witness_ResetEdgeEmptiesTheRegister :
    (midRun [rstSample hidden]).ports.rst = true ∧ (powerUp [rstSample hidden]).ports.rst = true := ⟨rfl, rfl⟩
theorem witness_LongerResetChangesNothingElse :
    (midRun [rstSample 0#64, rstSample hidden]).inputs = rstSample 0#64 :: rstSample hidden :: [] ∧
    (rstSample 0#64).rst = true ∧ (rstSample hidden).rst = true := ⟨rfl, rfl, rfl⟩
theorem witness_HeldResetKeepsEveryRegister :
    (∀ r ∈ [rstSample 0#64, rstSample hidden], r.rst = true) ∧
    (feeding ([rstSample 0#64, rstSample hidden] ++ [drainSample])).inReset = true ∧
    (feeding ([rstSample 0#64, rstSample hidden] ++ [drainSample])).rValid = false ∧
    (feeding ([rstSample 0#64, rstSample hidden] ++ [drainSample])).inputs =
      [rstSample 0#64, rstSample hidden] ++ [drainSample] := ⟨by decide, rfl, rfl, rfl⟩
theorem witness_EdgeBeforeTheFirstResetIsRefused :
    (powerUp [offerSample scenario]).resetSeen = false ∧ (powerUp [offerSample scenario]).ports.rst = false ∧
    ∃ t, step (midRun [drainSample]) = .next t := ⟨rfl, rfl, _, rfl⟩
theorem witness_ReservedPairFaultsWhenTaken :
    (holdingReserved [drainSample]).resetSeen = true ∧ (holdingReserved [drainSample]).rValid = true ∧
    (holdingReserved [drainSample]).rOk = false ∧ (holdingReserved [drainSample]).rPath = .raw ∧
    (holdingReserved [drainSample]).ports.rst = false ∧ (holdingReserved [drainSample]).ports.outReady = true ∧
    step (holdingReserved [drainSample]) = .fault .reservedStatus := ⟨rfl, rfl, rfl, rfl, rfl, rfl, rfl⟩
theorem witness_ErrorIsDeliveredAndTheBlockGoesOn :
    (holdingError [offerSample scenario]).resetSeen = true ∧ (holdingError [offerSample scenario]).rValid = true ∧
    (holdingError [offerSample scenario]).rOk = false ∧ (holdingError [offerSample scenario]).rPath = .xf ∧
    (holdingError [offerSample scenario]).ports.rst = false ∧
    (holdingError [offerSample scenario]).ports.outReady = true ∧
    (holdingError [offerSample scenario]).ports.inValid = true := ⟨rfl, rfl, rfl, rfl, rfl, rfl, rfl⟩
theorem witness_HeldResultStaysOnThePorts :
    (midRun [stallSample hidden]).resetSeen = true ∧ (midRun [stallSample hidden]).rValid = true ∧
    (midRun [stallSample hidden]).ports.rst = false ∧ (midRun [stallSample hidden]).ports.outReady = false :=
  ⟨rfl, rfl, rfl, rfl⟩
theorem witness_IdleBlockChangesNoRegister :
    (feeding [drainSample]).resetSeen = true ∧ (feeding [drainSample]).rValid = false ∧
    (feeding [drainSample]).ports.rst = false ∧ (feeding [drainSample]).ports.inValid = false := ⟨rfl, rfl, rfl, rfl⟩
theorem witness_ResultIsOnThePortsAfterLatency :
    (midRun [offerSample scenario, drainSample]).resetSeen = true ∧
    StatusLegal (midRun [offerSample scenario, drainSample]) ∧
    inFire (midRun [offerSample scenario, drainSample]) (midRun [offerSample scenario, drainSample]).ports = true ∧
    drainSample.rst = false ∧ drainSample.outReady = true := ⟨rfl, statusLegal_midRun _, rfl, rfl, rfl⟩
theorem witness_FullThroughputStream :
    (feeding ([scenario, hidden, 0#64].map offerSample ++ [drainSample])).resetSeen = true ∧
    (feeding ([scenario, hidden, 0#64].map offerSample ++ [drainSample])).rValid = false ∧
    (feeding ([scenario, hidden, 0#64].map offerSample ++ [drainSample])).inputs =
      [scenario, hidden, 0#64].map offerSample ++ [drainSample] := ⟨rfl, rfl, rfl⟩
theorem witness_ResultDependsOnTheFrameOnly :
    StatusLegal (midRun [offerSample hidden]) ∧ StatusLegal (feeding [stallSample hidden]) ∧
    inFire (midRun [offerSample hidden]) (midRun [offerSample hidden]).ports = true ∧
    inFire (feeding [stallSample hidden]) (feeding [stallSample hidden]).ports = true ∧
    (midRun [offerSample hidden]).ports.inFrame = (feeding [stallSample hidden]).ports.inFrame ∧
    SameRegisters (midRun [drainSample]) (holding .raw scenario [drainSample]) ∧
    (midRun [drainSample]).ports = (holding .raw scenario [drainSample]).ports ∧
    (midRun [drainSample]).ports.rst = false :=
  ⟨statusLegal_midRun _, statusLegal_feeding _, rfl, rfl, rfl, ⟨rfl, rfl, rfl, rfl⟩, rfl, rfl⟩
theorem witness_EveryStepKeepsTheStream :
    BlockInv (midRun [offerSample 0xFFFF02000D000000#64]) ∧
    ∃ t, step (midRun [offerSample 0xFFFF02000D000000#64]) = .next t := ⟨blockInv_midRun _, _, rfl⟩
theorem witness_NoRunStops : BlockInv (midRun [offerSample hidden, rstSample 0#64, drainSample]) := blockInv_midRun _

end Sys2Proof.Tests
end

section
/-! PROOFS. What one clock edge does, said once for every state with a legal status pair (10_state.md R38), and the
statements of the register rule that follow from it. -/

namespace Sys2Proof.Machine

/-! ### Frames read from the ports -/

/-- The fields of a frame that passes `CHECK` determine it (R61, R80). -/
theorem plaintextWord_of_checkWord {w : Word} (h : checkWord w = true) :
    plaintextWord (byteAt w 0) (byteAt w 1) (byteAt w 2) = w := by
  obtain ⟨hsum, h4, h5, h6, h7⟩ := check_eq_true.mp h
  simp only [unpack] at hsum h4 h5 h6 h7
  refine eq_of_byteAt (forall_byteIx ?_ ?_ ?_ ?_ ?_ ?_ ?_ ?_) <;> simp [plaintextWord, bytesOf, hsum, h4, h5, h6, h7]

/-- The bytes of a packed frame in arrival order are the array of that frame (R42). -/
theorem bytesOfList_byteList (w : Word) : bytesOfList (byteList w) = some (unpack w) :=
  congrArg some (funext (forall_byteIx rfl rfl rfl rfl rfl rfl rfl rfl))

/-- The decoder reads the bytes of a packed frame as that frame (R60). -/
@[simp] theorem decodeBytes_byteList (p : Params) (w : Word) :
    decodeBytes p (byteList w) = .ok (decodeWord p w) := by
  simp [decodeBytes, bytesOfList_byteList]

/-- What the decoder reads from a table word is the class of its frame (R68). -/
theorem decodeWord_of_decodeTableWord {nbits w : Nat} {i : Instr} (h : decodeTableWord nbits w = some i) :
    decodeWord Config.params (tableFrame nbits w) = i := by
  simp only [decodeTableWord, decodeBytes_byteList] at h
  split at h
  · exact Option.some.inj h
  · cases h

/-- `PARSE_VALUE` is bits 55:40 (R43). -/
theorem parseValue_eq_extractLsb' (w : Word) : parseValue w = w.extractLsb' 40 16 := by
  rw [parseValue, valueOf_eq_append]
  apply BitVec.eq_of_getLsbD_eq
  intro j hj
  simp only [BitVec.getLsbD_append, getLsbD_byteAt]
  interval_cases j <;> simp

/-! ### The ports -/

/-- `out_path` is 1 exactly on the transformed path (R23). -/
theorem pathBit_eq_true {path : Path} : pathBit path = true ↔ path = .xf := by
  cases path <;> decide

@[simp] theorem pathOfBit_pathBit (path : Path) : pathOfBit (pathBit path) = path := by
  cases path <;> rfl

/-- A consumer reads the held result off the ports (R36). -/
@[simp] theorem resultOnPorts_outPorts (s : State) : resultOnPorts s.outPorts = heldResult s := by
  simp [resultOnPorts, State.outPorts, heldResult]

theorem inReady_eq_true {s : State} {p : PortSample} :
    inReady s p = true ↔ s.rValid = false ∨ p.outReady = true := by
  simp [inReady]

theorem inFire_eq_true {s : State} {p : PortSample} :
    inFire s p = true ↔ p.inValid = true ∧ (s.rValid = false ∨ p.outReady = true) ∧ p.rst = false := by
  simp [inFire, inReady, and_assoc]

theorem outFire_eq_true {s : State} {p : PortSample} :
    outFire s p = true ↔ s.rValid = true ∧ p.outReady = true ∧ p.rst = false := by
  simp [outFire, and_assoc]

theorem inFire_of_not_inValid {s : State} {p : PortSample} (h : p.inValid = false) : inFire s p = false := by
  simp [inFire, h]

theorem inFire_of_stalled {s : State} {p : PortSample} (hv : s.rValid = true) (ho : p.outReady = false) :
    inFire s p = false := by
  simp [inFire, inReady, hv, ho]

theorem outFire_of_empty_or_not_outReady {s : State} {p : PortSample}
    (h : s.rValid = false ∨ p.outReady = false) : outFire s p = false := by
  obtain h | h := h <;> simp [outFire, h]

/-! ### The load and the take, as updates of the state -/

/-- The register takes the triple `DECODE` gives (R38, R90). -/
def loadDecoded (x : Decoded) (s : State) : State :=
  { s with rValid := true, rOk := x.ok, rPath := x.path, rBytes := x.bytes }

section LoadDecoded

variable (x : Decoded) (s : State)

@[simp] theorem loadDecoded_rValid : (loadDecoded x s).rValid = true := rfl
@[simp] theorem loadDecoded_rOk : (loadDecoded x s).rOk = x.ok := rfl
@[simp] theorem loadDecoded_rPath : (loadDecoded x s).rPath = x.path := rfl
@[simp] theorem loadDecoded_rBytes : (loadDecoded x s).rBytes = x.bytes := rfl
@[simp] theorem loadDecoded_inputs : (loadDecoded x s).inputs = s.inputs := rfl
@[simp] theorem loadDecoded_accepted : (loadDecoded x s).accepted = s.accepted := rfl
@[simp] theorem loadDecoded_taken : (loadDecoded x s).taken = s.taken := rfl
@[simp] theorem loadDecoded_resetSeen : (loadDecoded x s).resetSeen = s.resetSeen := rfl
@[simp] theorem loadDecoded_inReset : (loadDecoded x s).inReset = s.inReset := rfl
@[simp] theorem pendingResults_loadDecoded : pendingResults (loadDecoded x s) = [decodedResult x] := rfl

end LoadDecoded

/-- Running the class a frame decodes to loads `DECODE` of that frame (R90, R95). -/
theorem exec_decodeWord (d : Word) (s : State) :
    exec (decodeWord Config.params d) s = .next (loadDecoded (decodeFrame Config.params d) s) := by
  obtain ⟨hraw, hdec⟩ | ⟨hraw, hxf, hdec⟩ | ⟨hraw, hxf, hdec⟩ := decodeFrame_cases Config.params d
  · simp only [hdec, decodeWord, hraw, if_true, exec, execPlain, plaintextWord_of_checkWord hraw]
    rfl
  · simp only [hdec, decodeWord, hraw, hxf, if_true, exec, execObfuscated]
    rfl
  · simp only [hdec, decodeWord, hraw, hxf, exec, execInvalid]
    rfl

/-- Running an operation class delivers the code and the value of the word it was read from, unchanged, whichever
class it is (R120 to R122). -/
theorem exec_classify (w : Word) (s : State) :
    exec (classify w) s = .next (takeResult (.ok s.rPath (parseOp w) (parseValue w) s.rBytes) s) := by
  by_cases hco2 : parseOp w = codeCo2
  · simp [classify, hco2, exec, execOpCo2, parseValue]
  by_cases htemp : parseOp w = codeTemperature
  · simp [classify, htemp, codeCo2, codeTemperature, exec, execOpTemperature, parseValue]
  by_cases hhum : parseOp w = codeHumidity
  · simp [classify, hhum, codeCo2, codeTemperature, codeHumidity, exec, execOpHumidity, parseValue]
  · simp [classify, hco2, htemp, hhum, exec, execOpOther, parseValue]

theorem heldResult_of_rOk {s : State} (h : s.rOk = true) :
    heldResult s = .ok s.rPath (parseOp s.rBytes) (parseValue s.rBytes) s.rBytes := by
  simp [heldResult, h]

/-- The operation class of the held bytes delivers the held record. -/
theorem exec_classify_rBytes {s : State} (h : s.rOk = true) :
    exec (classify s.rBytes) s = .next (takeResult (heldResult s) s) := by
  rw [exec_classify, heldResult_of_rOk h]

/-- With a legal status pair the take hands over the held result and empties the register (R38, R132). -/
theorem deliver_of_legal {s : State} (h : statusOf s.rOk s.rPath ≠ .reserved) :
    deliver s = .next (takeResult (heldResult s) s) := by
  unfold deliver
  cases hok : s.rOk with
  | true => cases s.rPath <;> exact exec_classify_rBytes hok
  | false =>
    cases hpath : s.rPath with
    | raw => exact absurd (by simp [hok, hpath, statusOf]) h
    | xf => simp [statusOf, heldResult, hok]

/-- The state after the take of an edge, where `fire` says whether it happens (R38). -/
def afterTake (fire : Bool) (s : State) : State := if fire then takeResult (heldResult s) s else s

/-- The state after the load of an edge, where `fire` says whether it happens (R38, R90). -/
def afterLoad (fire : Bool) (d : Word) (s : State) : State :=
  if fire then loadDecoded (decodeFrame Config.params d) (recordAccept d s) else s

section Phases

variable (fire : Bool) (d : Word) (s : State)

@[simp] theorem afterTake_true : afterTake true s = takeResult (heldResult s) s := rfl
@[simp] theorem afterTake_false : afterTake false s = s := rfl
@[simp] theorem afterTake_rValid : (afterTake fire s).rValid = (s.rValid && !fire) := by cases fire <;> simp
@[simp] theorem afterTake_rOk : (afterTake fire s).rOk = s.rOk := by cases fire <;> rfl
@[simp] theorem afterTake_rPath : (afterTake fire s).rPath = s.rPath := by cases fire <;> rfl
@[simp] theorem afterTake_rBytes : (afterTake fire s).rBytes = s.rBytes := by cases fire <;> rfl
@[simp] theorem afterTake_inputs : (afterTake fire s).inputs = s.inputs := by cases fire <;> rfl
@[simp] theorem afterTake_accepted : (afterTake fire s).accepted = s.accepted := by cases fire <;> rfl
@[simp] theorem afterTake_resetSeen : (afterTake fire s).resetSeen = s.resetSeen := by cases fire <;> rfl
@[simp] theorem afterTake_inReset : (afterTake fire s).inReset = s.inReset := by cases fire <;> rfl

@[simp] theorem afterLoad_true :
    afterLoad true d s = loadDecoded (decodeFrame Config.params d) (recordAccept d s) := rfl
@[simp] theorem afterLoad_false : afterLoad false d s = s := rfl
@[simp] theorem afterLoad_inputs : (afterLoad fire d s).inputs = s.inputs := by cases fire <;> rfl
@[simp] theorem afterLoad_taken : (afterLoad fire d s).taken = s.taken := by cases fire <;> rfl
@[simp] theorem afterLoad_resetSeen : (afterLoad fire d s).resetSeen = s.resetSeen := by cases fire <;> rfl
@[simp] theorem afterLoad_inReset : (afterLoad fire d s).inReset = s.inReset := by cases fire <;> rfl

/-- The load of the edge is `afterLoad`. -/
theorem loadPhase_eq : loadPhase fire d s = .next (afterLoad fire d s) := by
  cases fire
  · rfl
  · exact exec_decodeWord d (recordAccept d s)

end Phases

/-- The take of the edge is `afterTake`: `out_fire` implies that a result is held, so its status pair is legal. -/
theorem takePhase_of_legal {s : State} (p : PortSample) (hlegal : StatusLegal s) :
    takePhase (outFire s p) s = .next (afterTake (outFire s p) s) := by
  cases hout : outFire s p with
  | false => rfl
  | true => exact deliver_of_legal (hlegal (outFire_eq_true.mp hout).1)

/-- When a frame is accepted, the take of the same edge leaves the register empty (R37). -/
theorem afterTake_rValid_of_inFire {s : State} {p : PortSample} (h : inFire s p = true) :
    (afterTake (outFire s p) s).rValid = false := by
  obtain ⟨-, hready, hrst⟩ := inFire_eq_true.mp h
  obtain hempty | hready := hready
  · simp [hempty]
  · simp [outFire, hready, hrst]

/-! ### One step -/

/-- A step with `rst = 1` is a reset edge, from any state (R150). -/
theorem step_of_rst {s : State} (h : s.ports.rst = true) : step s = .next (resetEdge (consumeSample s)) :=
  step_next.mpr (.inl ⟨h, rfl⟩)

section Transfer

variable {s : State} (hseen : s.resetSeen = true) (hlegal : StatusLegal s) (hrst : s.ports.rst = false)
include hseen hlegal hrst

/-- A step with `rst = 0` is the take and then the load, with both fires sampled before the edge (R38). -/
theorem step_eq_loadPhase :
    step s = loadPhase (inFire s s.ports) s.ports.inFrame
      (afterTake (outFire s s.ports) (countEdge (consumeSample s))) := by
  have htake := takePhase_of_legal (s := countEdge (consumeSample s)) s.ports hlegal
  simp only [outFire_consume] at htake
  simp [step, clockEdge, hrst, hseen, transferEdge, htake]

/-- The next state of a step with `rst = 0`. -/
theorem step_eq_afterLoad :
    step s = .next (afterLoad (inFire s s.ports) s.ports.inFrame
      (afterTake (outFire s s.ports) (countEdge (consumeSample s)))) := by
  rw [step_eq_loadPhase hseen hlegal hrst, loadPhase_eq]

/-- A step that accepts a frame runs the class of that frame, after the take (R38, R90). -/
theorem step_of_inFire (hin : inFire s s.ports = true) :
    step s = exec (decodeWord Config.params s.ports.inFrame) (recordAccept s.ports.inFrame
      (afterTake (outFire s s.ports) (countEdge (consumeSample s)))) := by
  rw [step_eq_loadPhase hseen hlegal hrst, hin, loadPhase_true]

end Transfer

/-! ### What each operation keeps of the status pair and of the invariant -/

theorem statusLegal_of_empty {s : State} (h : s.rValid = false) : StatusLegal s := by
  intro hvalid
  rw [h] at hvalid
  cases hvalid

/-- `DECODE` never gives the reserved pair (R98). -/
theorem decodeFrame_not_reserved (p : Params) (d : Word) :
    statusOf (decodeFrame p d).ok (decodeFrame p d).path ≠ .reserved := by
  obtain ⟨-, h⟩ | ⟨-, -, h⟩ | ⟨-, -, h⟩ := decodeFrame_cases p d <;> simp [h, statusOf]

/-- A result of `DECODE` with `ok = 1` carries bytes that pass `CHECK` (R94). -/
theorem checkWord_decodeFrame {p : Params} {d : Word} (hok : (decodeFrame p d).ok = true) :
    checkWord (decodeFrame p d).bytes = true := by
  obtain ⟨hraw, h⟩ | ⟨-, hxf, h⟩ | ⟨-, -, h⟩ := decodeFrame_cases p d
  · simpa [h] using hraw
  · simpa [h] using hxf
  · simp [h] at hok

theorem statusLegal_afterTake {s : State} (fire : Bool) (h : StatusLegal s) : StatusLegal (afterTake fire s) := by
  intro hvalid
  simp only [afterTake_rValid, Bool.and_eq_true] at hvalid
  simpa using h hvalid.1

theorem statusLegal_afterLoad {s : State} (fire : Bool) (d : Word) (h : StatusLegal s) :
    StatusLegal (afterLoad fire d s) := by
  cases fire with
  | false => exact h
  | true => exact fun _ => decodeFrame_not_reserved Config.params d

/-- Whatever the state before it, a reset edge leaves the invariant: nothing is held and nothing is written down. -/
theorem blockInv_resetEdge (s : State) : BlockInv (resetEdge s) where
  statusLegal := statusLegal_of_empty rfl
  heldChecked := by simp [HeldChecked]
  streamExact := by simp [StreamExact]
  resetSeen := rfl
  resetHeldEmpty := fun _ => ⟨rfl, rfl, rfl⟩

/-- Using up a port sample and counting the edge touch no register and no record of a transfer. -/
theorem blockInv_consume {s : State} (h : BlockInv s) : BlockInv (countEdge (consumeSample s)) where
  statusLegal := h.statusLegal
  heldChecked := h.heldChecked
  streamExact := h.streamExact
  resetSeen := h.resetSeen
  resetHeldEmpty := by simp [ResetHeldEmpty]

/-- The take moves the held result to the end of the results taken, so the stream stays the same (R39). -/
theorem blockInv_afterTake {s : State} {fire : Bool} (h : BlockInv s) (hreset : s.inReset = false)
    (hfire : fire = true → s.rValid = true) : BlockInv (afterTake fire s) := by
  cases fire with
  | false => exact h
  | true =>
    have hpending : pendingResults s = [heldResult s] := by simp [pendingResults, hfire rfl]
    have hstream := h.streamExact
    exact {
      statusLegal := statusLegal_afterTake true h.statusLegal
      heldChecked := by simp [HeldChecked]
      streamExact := by simpa [StreamExact, hpending] using hstream
      resetSeen := h.resetSeen
      resetHeldEmpty := by simp [ResetHeldEmpty, hreset] }

/-- The load into an empty register appends `DECODE` of the frame to the stream of results as the frame is appended
to the stream of frames (R39, R90). -/
theorem blockInv_afterLoad {s : State} {fire : Bool} (d : Word) (h : BlockInv s) (hreset : s.inReset = false)
    (hfire : fire = true → s.rValid = false) : BlockInv (afterLoad fire d s) := by
  cases fire with
  | false => exact h
  | true =>
    have hstream : s.taken = s.accepted.map resultOf := by
      simpa [StreamExact, pendingResults, hfire rfl] using h.streamExact
    exact {
      statusLegal := statusLegal_afterLoad true d h.statusLegal
      heldChecked := fun _ => checkWord_decodeFrame
      streamExact := by simp [StreamExact, hstream, resultOf]
      resetSeen := h.resetSeen
      resetHeldEmpty := by simp [ResetHeldEmpty, hreset] }

/-- A transfer edge keeps the invariant: the take, and then the load into the register it has left empty. -/
theorem blockInv_transfer {s : State} (p : PortSample) (h : BlockInv s) (hreset : s.inReset = false) :
    BlockInv (afterLoad (inFire s p) p.inFrame (afterTake (outFire s p) s)) :=
  blockInv_afterLoad p.inFrame
    (blockInv_afterTake h hreset fun hout => (outFire_eq_true.mp hout).1) (by simpa using hreset)
    afterTake_rValid_of_inFire

/-! ### The statements -/

/-- Settles O38. With `rst = 1` the step is a reset edge; with `rst = 0` it is `afterTake` and then `afterLoad`, and
each clause of the rule fixes which of the two fires. -/
theorem stepFollowsTheClockEdgeRule : Obligations.StepFollowsTheClockEdgeRule := by
  intro s hseen hlegal
  cases hrst : s.ports.rst with
  | true =>
    exact ⟨_, step_of_rst hrst, rfl, rfl, statusLegal_of_empty rfl, rfl, fun _ => rfl, nofun⟩
  | false =>
    refine ⟨_, step_eq_afterLoad hseen hlegal hrst, by simp, by simpa using hseen,
      statusLegal_afterLoad _ _ (statusLegal_afterTake _ hlegal), by simp, nofun,
      fun _ => ⟨?load, ?take, ?idle, ?stall, ?taken, ?notTaken⟩⟩
    case load =>
      rintro ⟨hin, hready⟩
      simp [inFire_eq_true.mpr ⟨hin, hready, hrst⟩]
    case take =>
      rintro ⟨hin, hvalid, hready⟩
      simp [inFire_of_not_inValid hin, outFire_eq_true.mpr ⟨hvalid, hready, hrst⟩]
    case idle =>
      rintro ⟨hin, hout⟩
      simp [inFire_of_not_inValid hin, outFire_of_empty_or_not_outReady hout, SameRegisters]
    case stall =>
      rintro ⟨hvalid, hready⟩
      simp [inFire_of_stalled hvalid hready, outFire_of_empty_or_not_outReady (.inr hready), SameRegisters]
    case taken =>
      rintro ⟨hvalid, hready⟩
      simp [outFire_eq_true.mpr ⟨hvalid, hready, hrst⟩]
    case notTaken =>
      intro hout
      simp [outFire_of_empty_or_not_outReady hout]

/-- Settles O49: a step that answers a next state is a reset edge, which starts the stream anew, or a transfer edge,
whose take and load each keep the invariant. -/
theorem everyStepKeepsTheStream : Obligations.EveryStepKeepsTheStream := by
  intro s t hinv hstep
  obtain ⟨-, rfl⟩ | ⟨hrst, hseen, -⟩ := step_next.mp hstep
  · exact blockInv_resetEdge _
  · rw [step_eq_afterLoad hseen hinv.statusLegal hrst] at hstep
    cases hstep
    exact blockInv_transfer s.ports (blockInv_consume hinv) rfl

/-- Settles O31. -/
theorem outputPortsShowTheRegisters : Obligations.OutputPortsShowTheRegisters := fun s _ =>
  ⟨rfl, rfl, pathBit_eq_true, rfl, rfl, parseValue_eq_extractLsb' s.rBytes, inReady_eq_true⟩

/-- Settles O1: the offered frame fires in both clauses, and the take fires in the second only. -/
theorem stepRunsTheOfferedFrame : Obligations.StepRunsTheOfferedFrame := by
  intro s i hseen hrst hin hdecode
  obtain rfl : decodeWord Config.params s.ports.inFrame = i := by simpa using hdecode
  refine ⟨fun hempty => ?_, fun hvalid hready hlegal => ?_⟩
  · rw [step_of_inFire hseen (statusLegal_of_empty hempty) hrst (inFire_eq_true.mpr ⟨hin, .inl hempty, hrst⟩),
      outFire_of_empty_or_not_outReady (.inl hempty), afterTake_false]
  · rw [step_of_inFire hseen (fun _ => hlegal) hrst (inFire_eq_true.mpr ⟨hin, .inr hready, hrst⟩),
      outFire_eq_true.mpr ⟨hvalid, hready, hrst⟩, afterTake_true, heldResult_consume]

/-- Settles O2: only the take fires, and what it hands over is what the operation class of `r_bytes` delivers. -/
theorem stepRunsTheDeliveredRecord : Obligations.StepRunsTheDeliveredRecord := by
  intro s hseen hrst hin hready hvalid hok
  have hlegal : StatusLegal s := fun _ => by cases hpath : s.rPath <;> simp [hok, statusOf]
  rw [step_eq_afterLoad hseen hlegal hrst, inFire_of_not_inValid hin, afterLoad_false,
    outFire_eq_true.mpr ⟨hvalid, hready, hrst⟩, afterTake_true]
  exact (exec_classify_rBytes (s := countEdge (consumeSample s)) hok).symm

/-- Settles O3: the placed word is offered at the next edge, which is O1 with an empty register. -/
theorem fetchWordRunsAtTheNextStep : Obligations.FetchWordRunsAtTheNextStep := by
  intro s nbits w i hseen hempty hdecode
  obtain rfl := decodeWord_of_decodeTableWord hdecode
  exact (stepRunsTheOfferedFrame (s.withFetchWord nbits w) _ hseen rfl rfl (decodeBytes_byteList _ _)).1 hempty

end Sys2Proof.Machine
end

section
/-! PROOFS. The packed word (20_memory.md): its rotation (R44), its fields (R43), and that nothing but the frame
accepted reaches the registers (R51). -/

namespace Sys2Proof.Machine

/-! ### Rotation of the packed word -/

/-- Bit `56 - 8i + j` of a packed frame is bit `j` of byte `i` (R42). -/
theorem getLsbD_pack (d : Bytes) (i : ByteIx) {j : Nat} (hj : j < 8) :
    (pack d).getLsbD (56 - 8 * i.val + j) = (d i).getLsbD j := by
  simpa [hj] using (getLsbD_byteAt (pack d) i j).symm

/-- `ROR64` is the rotation of bit vectors (R8). -/
theorem ror64_eq_rotateRight (w : Word) {n : Nat} (hn : n < 64) : ror64 w n = w.rotateRight n := by
  rw [BitVec.rotateRight_eq_rotateRightAux_of_lt hn]
  rfl

/-- The byte before byte 0 is byte 7 (R103). -/
theorem val_byteIx_pred (i : ByteIx) : (i.val = 0 ∧ (i - 1).val = 7) ∨ (i - 1).val + 1 = i.val := by
  revert i
  decide

/-- Step c on the array is a right rotation of the packed word by 3 (R44): the top five bits of a byte stay in that
byte, three places lower, and the bottom three go to the top of the byte after it in index order, the next lower
byte of the word, where byte 0 comes after byte 7. -/
theorem pack_rotate3 (x : Bytes) : pack (rotate3 x) = (pack x).rotateRight 3 := by
  refine eq_of_byteAt fun i => BitVec.eq_of_getLsbD_eq fun j hj => ?_
  rw [byteAt_pack, getLsbD_rotate3 x i hj, getLsbD_byteAt, BitVec.getLsbD_rotateRight]
  have hi := i.isLt
  by_cases hlow : j < 5
  · rw [if_pos hlow, ← getLsbD_pack x i (by omega)]
    have hin : 56 - 8 * i.val + j < 61 := by omega
    simp [hj, hin, Nat.add_left_comm]
  · rw [if_neg hlow, ← getLsbD_pack x (i - 1) (by omega)]
    obtain ⟨hzero, hlast⟩ | hpred := val_byteIx_pred i
    · have hwrap : 56 + j - 61 = j - 5 := by omega
      simp [hj, hzero, hlast, hwrap, show ¬ 56 + j < 61 by omega, show 56 + j < 64 by omega]
    · have hin : 56 - 8 * i.val + j < 61 := by omega
      have hbit : 3 + (56 - 8 * i.val + j) = 56 - 8 * (i - 1).val + (j - 5) := by omega
      simp [hj, hin, hbit]

/-! ### The value as an integer -/

/-- The value is big-endian and unsigned (R121). -/
theorem toNat_valueOf (vhi vlo : Byte) : (valueOf vhi vlo).toNat = 256 * vhi.toNat + vlo.toNat := by
  rw [valueOf_eq_append, BitVec.toNat_append, ← Nat.shiftLeft_add_eq_or_of_lt vlo.isLt, Nat.shiftLeft_eq,
    Nat.mul_comm]

/-! ### Two blocks with the same registers -/

section SameRegisters

variable {s s' : State}

theorem inFire_of_sameRegisters (h : SameRegisters s s') (p : PortSample) : inFire s p = inFire s' p := by
  obtain ⟨hvalid, -, -, -⟩ := h
  simp [inFire, inReady, hvalid]

theorem outFire_of_sameRegisters (h : SameRegisters s s') (p : PortSample) : outFire s p = outFire s' p := by
  obtain ⟨hvalid, -, -, -⟩ := h
  simp [outFire, hvalid]

theorem statusLegal_of_sameRegisters (h : SameRegisters s s') (hlegal : StatusLegal s) : StatusLegal s' := by
  obtain ⟨hvalid, hok, hpath, -⟩ := h
  rwa [StatusLegal, ← hvalid, ← hok, ← hpath]

/-- The take writes registers from registers only: what it records is none (R20). -/
theorem sameRegisters_afterTake (h : SameRegisters s s') (fire : Bool) :
    SameRegisters (afterTake fire s) (afterTake fire s') := by
  obtain ⟨hvalid, hok, hpath, hbytes⟩ := h
  simp [SameRegisters, hvalid, hok, hpath, hbytes]

/-- A load of one frame leaves the same registers, whatever the two states before it (R96). -/
theorem sameRegisters_of_load (d : Word) (s s' : State) :
    SameRegisters (afterLoad true d s) (afterLoad true d s') :=
  ⟨rfl, rfl, rfl, rfl⟩

theorem sameRegisters_afterLoad (h : SameRegisters s s') (fire : Bool) (d : Word) :
    SameRegisters (afterLoad fire d s) (afterLoad fire d s') := by
  cases fire with
  | false => exact h
  | true => exact sameRegisters_of_load d s s'

end SameRegisters

/-! ### The statements -/

/-- Settles O14, with the formula of R8 read as the rotation of bit vectors. -/
theorem rotationIsRor64OfThePackedWord : Obligations.RotationIsRor64OfThePackedWord := fun x =>
  ⟨(pack_rotate3 x).trans (ror64_eq_rotateRight _ (by decide)).symm, pack_rotate3 x⟩

/-- Settles O30. -/
theorem parseReadsContiguousFields : Obligations.ParseReadsContiguousFields := fun w =>
  ⟨rfl, parseValue_eq_extractLsb' w, rfl, toNat_valueOf (byteAt w 1) (byteAt w 2)⟩

/-- Settles O48: a load overwrites all four registers with `DECODE` of the frame, and without one the registers after
the edge follow from those before it and the ports. -/
theorem resultDependsOnTheFrameOnly : Obligations.ResultDependsOnTheFrameOnly := by
  refine ⟨fun s s' hseen hseen' hlegal hlegal' hin hin' hframe => ?_,
    fun s s' hseen hseen' hlegal hsame hports hrst => ?_⟩
  · obtain ⟨-, -, hrst⟩ := inFire_eq_true.mp hin
    obtain ⟨-, -, hrst'⟩ := inFire_eq_true.mp hin'
    refine ⟨_, _, step_eq_afterLoad hseen hlegal hrst, step_eq_afterLoad hseen' hlegal' hrst', ?_⟩
    rw [hin, hin', hframe]
    exact sameRegisters_of_load _ _ _
  · refine ⟨_, _, step_eq_afterLoad hseen hlegal hrst,
      step_eq_afterLoad hseen' (statusLegal_of_sameRegisters hsame hlegal) (hports ▸ hrst), ?_⟩
    have hconsumed : SameRegisters (countEdge (consumeSample s)) (countEdge (consumeSample s')) := hsame
    rw [← hports, ← inFire_of_sameRegisters hsame, ← outFire_of_sameRegisters hsame]
    exact sameRegisters_afterLoad (sameRegisters_afterTake hconsumed _) _ _

end Sys2Proof.Machine
end

section
/-! PROOFS. Encoding (30_encoding.md): what the two decoders read from the word an instruction encodes to and back
(R61 to R68), the length of a frame (R60), and the one obfuscated form of each plaintext frame (R63). -/

namespace Sys2Proof.Machine

/-! ### Plaintext frames and `CHECK` -/

/-- `CHECK` of a packed frame, equality by equality (R80 to R82, R84). -/
theorem checkWord_eq_true {w : Word} :
    checkWord w = true ↔ sumByte (byteAt w 0) (byteAt w 1) (byteAt w 2) = byteAt w 3 ∧ byteAt w 4 = trailer4 ∧
      byteAt w 5 = trailer567 ∧ byteAt w 6 = trailer567 ∧ byteAt w 7 = trailer567 :=
  check_eq_true

/-- A frame passes `CHECK` exactly when its `OP`, `VHI` and `VLO` determine it (R61, R80). -/
theorem checkWord_iff_eq_plaintextWord {w : Word} :
    checkWord w = true ↔ w = plaintextWord (byteAt w 0) (byteAt w 1) (byteAt w 2) :=
  ⟨fun h => (plaintextWord_of_checkWord h).symm, fun h => h ▸ checkWord_plaintextWord _ _ _⟩

theorem byteAt_and (v w : Word) (i : ByteIx) : byteAt (v &&& w) i = byteAt v i &&& byteAt w i :=
  BitVec.extractLsb'_and

/-- The trailer is the low half of a checked word (R61, R82). -/
theorem and_lowHalf_of_checkWord {w : Word} (h : checkWord w = true) :
    w &&& 0x00000000FFFFFFFF#64 = 0x000000000D000000#64 := by
  obtain ⟨-, h4, h5, h6, h7⟩ := checkWord_eq_true.mp h
  have hmask : 0x00000000FFFFFFFF#64 = pack (bytesOf 0 0 0 0 0xFF#8 0xFF#8 0xFF#8 0xFF#8) := rfl
  have htrailer : 0x000000000D000000#64 = pack (bytesOf 0 0 0 0 trailer4 trailer567 trailer567 trailer567) := rfl
  rw [hmask, htrailer]
  refine eq_of_byteAt (forall_byteIx ?_ ?_ ?_ ?_ ?_ ?_ ?_ ?_) <;>
    simp [byteAt_and, bytesOf, h4, h5, h6, h7, trailer4, trailer567]

/-! ### The frame classes -/

theorem wellFormed_obfuscated {p : Params} {d : Word} :
    (Instr.obfuscated d).wellFormed p = true ↔ checkWord d = false ∧ checkWord (decryptWord p d) = true := by
  simp [Instr.wellFormed]

theorem wellFormed_invalid {p : Params} {d : Word} :
    (Instr.invalid d).wellFormed p = true ↔ checkWord d = false ∧ checkWord (decryptWord p d) = false := by
  simp [Instr.wellFormed]

/-- A frame that passes the raw check is `PLAIN`, whatever its transform gives (R64, R91). -/
theorem decodeWord_of_checkWord (p : Params) {d : Word} (h : checkWord d = true) :
    decodeWord p d = .plain (byteAt d 0) (byteAt d 1) (byteAt d 2) := by
  simp [decodeWord, h]

theorem decodeWord_of_wellFormed_obfuscated {p : Params} {d : Word}
    (h : (Instr.obfuscated d).wellFormed p = true) : decodeWord p d = .obfuscated d := by
  obtain ⟨hraw, hxf⟩ := wellFormed_obfuscated.mp h
  simp [decodeWord, hraw, hxf]

theorem decodeWord_of_wellFormed_invalid {p : Params} {d : Word}
    (h : (Instr.invalid d).wellFormed p = true) : decodeWord p d = .invalid d := by
  obtain ⟨hraw, hxf⟩ := wellFormed_invalid.mp h
  simp [decodeWord, hraw, hxf]

/-- The three frame classes and the row predicate under which each is read (R90, R95). -/
theorem decodeWord_cases (p : Params) (d : Word) :
    (checkWord d = true ∧ decodeWord p d = .plain (byteAt d 0) (byteAt d 1) (byteAt d 2)) ∨
    ((Instr.obfuscated d).wellFormed p = true ∧ decodeWord p d = .obfuscated d) ∨
    ((Instr.invalid d).wellFormed p = true ∧ decodeWord p d = .invalid d) := by
  cases hraw : checkWord d with
  | true => exact .inl ⟨rfl, decodeWord_of_checkWord p hraw⟩
  | false =>
    cases hxf : checkWord (decryptWord p d) with
    | true =>
      have hwf := wellFormed_obfuscated.mpr ⟨hraw, hxf⟩
      exact .inr (.inl ⟨hwf, decodeWord_of_wellFormed_obfuscated hwf⟩)
    | false =>
      have hwf := wellFormed_invalid.mpr ⟨hraw, hxf⟩
      exact .inr (.inr ⟨hwf, decodeWord_of_wellFormed_invalid hwf⟩)

/-- The frame class of a word determines the word (R61, R95). -/
theorem encode_decodeWord (p : Params) (w : Word) : encode (decodeWord p w) = w := by
  obtain ⟨hraw, hdec⟩ | ⟨-, hdec⟩ | ⟨-, hdec⟩ := decodeWord_cases p w
  · rw [hdec]
    exact plaintextWord_of_checkWord hraw
  · rw [hdec, encode]
  · rw [hdec, encode]

/-! ### The operation classes -/

@[simp] theorem parseOp_plaintextWord (op vhi vlo : Byte) : parseOp (plaintextWord op vhi vlo) = op :=
  byteAt_plaintextWord_op op vhi vlo

theorem isOtherCode_eq_true {op : Byte} :
    isOtherCode op = true ↔ op ≠ codeCo2 ∧ op ≠ codeTemperature ∧ op ≠ codeHumidity := by
  simp [isOtherCode, and_assoc]

/-- The class of a word by its code, each named code and then every other one (R65, R122). -/
theorem classify_cases (w : Word) :
    (parseOp w = codeCo2 ∧ classify w = .opCo2 (byteAt w 1) (byteAt w 2)) ∨
    (parseOp w = codeTemperature ∧ classify w = .opTemperature (byteAt w 1) (byteAt w 2)) ∨
    (parseOp w = codeHumidity ∧ classify w = .opHumidity (byteAt w 1) (byteAt w 2)) ∨
    (isOtherCode (parseOp w) = true ∧ classify w = .opOther (parseOp w) (byteAt w 1) (byteAt w 2)) := by
  by_cases hco2 : parseOp w = codeCo2
  · exact .inl ⟨hco2, by simp [classify, hco2]⟩
  by_cases htemp : parseOp w = codeTemperature
  · exact .inr (.inl ⟨htemp, by simp [classify, htemp, codeCo2, codeTemperature]⟩)
  by_cases hhum : parseOp w = codeHumidity
  · exact .inr (.inr (.inl ⟨hhum, by simp [classify, hhum, codeCo2, codeTemperature, codeHumidity]⟩))
  · exact .inr (.inr (.inr ⟨isOtherCode_eq_true.mpr ⟨hco2, htemp, hhum⟩, by simp [classify, hco2, htemp, hhum]⟩))

/-- An operation class keeps the three fields of its word and nothing else of it (R68). -/
theorem encode_classify (w : Word) :
    encode (classify w) = plaintextWord (byteAt w 0) (byteAt w 1) (byteAt w 2) := by
  obtain ⟨hop, hclass⟩ | ⟨hop, hclass⟩ | ⟨hop, hclass⟩ | ⟨-, hclass⟩ := classify_cases w
  · rw [hclass, encode, ← hop, parseOp]
  · rw [hclass, encode, ← hop, parseOp]
  · rw [hclass, encode, ← hop, parseOp]
  · rw [hclass, encode, parseOp]

theorem decodeChecked_eq_ok {w : Word} {i : Instr} :
    decodeChecked w = .ok i ↔ checkWord w = true ∧ classify w = i := by
  unfold decodeChecked
  split <;> simp [*]

/-- The checked-bytes decoder reads a plaintext frame by its code alone (R61, R68). -/
theorem decodeChecked_plaintextWord (op vhi vlo : Byte) :
    decodeChecked (plaintextWord op vhi vlo) = .ok (classify (plaintextWord op vhi vlo)) :=
  decodeChecked_eq_ok.mpr ⟨checkWord_plaintextWord op vhi vlo, rfl⟩

/-- An `OP_OTHER` frame is read as the class `OP_OTHER` when no named row has its code (R65, R122). -/
theorem classify_plaintextWord_of_isOtherCode {op : Byte} (h : isOtherCode op = true) (vhi vlo : Byte) :
    classify (plaintextWord op vhi vlo) = .opOther op vhi vlo := by
  obtain ⟨hco2, htemp, hhum⟩ := isOtherCode_eq_true.mp h
  simp [classify, hco2, htemp, hhum]

/-! ### The length of a frame -/

/-- Only a list of 8 bytes is an array of bytes (R46, R60). -/
theorem bytesOfList_eq_none {bs : List Byte} : bytesOfList bs = none ↔ bs.length ≠ Config.frameBytes := by
  unfold bytesOfList
  split
  case h_1 => simp [Config.frameBytes]
  case h_2 hother =>
    refine iff_of_true rfl fun hlen => ?_
    match bs, hlen with
    | [b0, b1, b2, b3, b4, b5, b6, b7], _ => exact hother b0 b1 b2 b3 b4 b5 b6 b7 rfl

theorem decodeBytes_of_length_ne (p : Params) {bs : List Byte} (h : bs.length ≠ Config.frameBytes) :
    decodeBytes p bs = .error .notEightBytes := by
  rw [decodeBytes, bytesOfList_eq_none.mpr h]

theorem decodeBytes_of_length_eq (p : Params) {bs : List Byte} (h : bs.length = Config.frameBytes) :
    ∃ i, decodeBytes p bs = .ok i := by
  obtain ⟨d, hd⟩ := Option.ne_none_iff_exists'.mp fun hnone => bytesOfList_eq_none.mp hnone h
  exact ⟨decodeWord p (pack d), by rw [decodeBytes, hd]⟩

/-! ### The transform and its inverse, step by step -/

section Inverse

variable (p : Params) (x : Bytes)

theorem permute_unpermute : permute (unpermute x) = x :=
  funext fun j => congrArg x (shuffle_shuffle j)

theorem unpermute_permute : unpermute (permute x) = x :=
  funext fun i => congrArg x (shuffle_shuffle i)

theorem xorKey_xorKey : xorKey p (xorKey p x) = x :=
  funext fun i => by simp [xorKey]

/-- Each bit comes back from the byte it was moved to: the low five from the byte itself, the high three from the
byte before it. -/
theorem rotate3_unrotate3 : rotate3 (unrotate3 x) = x := by
  refine funext fun i => BitVec.eq_of_getLsbD_eq fun j hj => ?_
  rw [getLsbD_rotate3 _ i hj]
  split
  case isTrue hlow => rw [getLsbD_unrotate3 x i (by omega), if_neg (by omega), Nat.add_sub_cancel_left]
  case isFalse hhigh =>
    rw [getLsbD_unrotate3 x (i - 1) (by omega), if_pos (by omega), sub_add_cancel, Nat.add_sub_cancel' (by omega)]

/-- The same the other way: the low three bits from the byte after it, the high five from the byte itself. -/
theorem unrotate3_rotate3 : unrotate3 (rotate3 x) = x := by
  refine funext fun i => BitVec.eq_of_getLsbD_eq fun j hj => ?_
  rw [getLsbD_unrotate3 _ i hj]
  split
  case isTrue hlow =>
    rw [getLsbD_rotate3 x (i + 1) (by omega), if_neg (by omega), add_sub_cancel_right, Nat.add_sub_cancel_left]
  case isFalse hhigh => rw [getLsbD_rotate3 x i (by omega), if_pos (by omega), Nat.add_sub_cancel' (by omega)]

theorem subMask_addMask : subMask p (addMask p x) = x := by
  funext i
  rw [subMask, addMask, subByte_eq, addByte_eq, BitVec.add_sub_cancel]

theorem addMask_subMask : addMask p (subMask p x) = x := by
  funext i
  rw [addMask, subMask, addByte_eq, subByte_eq, BitVec.sub_add_cancel]

/-- `DECRYPT(E(x)) = x` (R106). -/
theorem decrypt_obfuscate : decrypt p (obfuscate p x) = x := by
  rw [decrypt, obfuscate, permute_unpermute, xorKey_xorKey, rotate3_unrotate3, subMask_addMask]

/-- `E(DECRYPT(x)) = x` (R106). -/
theorem obfuscate_decrypt : obfuscate p (decrypt p x) = x := by
  rw [obfuscate, decrypt, addMask_subMask, unrotate3_rotate3, xorKey_xorKey, unpermute_permute]

end Inverse

/-- `E` of a packed frame is the one word that `DECRYPT` takes to it (R106). -/
theorem decryptWord_eq_iff {p : Params} {d w : Word} : decryptWord p d = w ↔ d = obfuscateWord p w := by
  constructor
  · rintro rfl
    rw [obfuscateWord, decryptWord, unpack_pack, obfuscate_decrypt, pack_unpack]
  · rintro rfl
    rw [decryptWord, obfuscateWord, unpack_pack, decrypt_obfuscate, pack_unpack]

/-! ### The statements -/

/-- Settles O6. -/
theorem decodeOfEncodedFrame : Obligations.DecodeOfEncodedFrame := fun p => by
  refine ⟨fun op vhi vlo => ?_, fun d => decodeWord_of_wellFormed_obfuscated,
    fun d => decodeWord_of_wellFormed_invalid, encode_decodeWord p⟩
  rw [encode, decodeWord_of_checkWord p (checkWord_plaintextWord op vhi vlo), byteAt_plaintextWord_op,
    byteAt_plaintextWord_vhi, byteAt_plaintextWord_vlo]

/-- Settles O7. An encoded record passes `CHECK` and is read by its code; a word that passes `CHECK` is the plaintext
frame of its fields, which is what its class encodes to. -/
theorem decodeOfEncodedRecord : Obligations.DecodeOfEncodedRecord := by
  refine ⟨fun vhi vlo => ?co2, fun vhi vlo => ?temperature, fun vhi vlo => ?humidity,
    fun p op vhi vlo hother => ?other, fun w i hdec => ?back⟩
  case co2 => simp [encode, decodeChecked_plaintextWord, classify]
  case temperature => simp [encode, decodeChecked_plaintextWord, classify, codeCo2, codeTemperature]
  case humidity => simp [encode, decodeChecked_plaintextWord, classify, codeCo2, codeTemperature, codeHumidity]
  case other => rw [encode, decodeChecked_plaintextWord, classify_plaintextWord_of_isOtherCode hother]
  case back =>
    obtain ⟨hcheck, rfl⟩ := decodeChecked_eq_ok.mp hdec
    rw [encode_classify, plaintextWord_of_checkWord hcheck]

/-- Settles O5. -/
theorem framesAreExactlyEightBytes : Obligations.FramesAreExactlyEightBytes := by
  refine ⟨rfl, fun p bs => ⟨⟨fun ⟨i, hi⟩ => ?_, decodeBytes_of_length_eq p⟩, decodeBytes_of_length_ne p,
    decodeBytes_byteList p⟩⟩
  by_contra hlen
  rw [decodeBytes_of_length_ne p hlen] at hi
  cases hi

/-- Settles O10. -/
theorem checkedFramesAreThePlaintextFrames : Obligations.CheckedFramesAreThePlaintextFrames := by
  refine fun w => ⟨checkWord_iff_eq_plaintextWord, fun hcheck => ⟨and_lowHalf_of_checkWord hcheck, ?_⟩⟩
  obtain ⟨hsum, -⟩ := checkWord_eq_true.mp hcheck
  rw [← hsum, sumByte_eq]

/-- Settles O18: `E` is the inverse of `DECRYPT`, so where the raw check of `E(w)` fails the second attempt sees `w`. -/
theorem eachPlaintextHasOneObfuscatedForm : Obligations.EachPlaintextHasOneObfuscatedForm := by
  refine fun p w hcheck => ⟨fun d => decryptWord_eq_iff, fun hraw => ?_⟩
  have hdecrypt : decryptWord p (obfuscateWord p w) = w := decryptWord_eq_iff.mpr rfl
  simp [decodeFrame, hraw, hdecrypt, hcheck]

/-- Settles O4, by evaluating the two decoders on the words of 95_test_vectors.md, the second clause with the
parameters of TP1 written out. -/
theorem writtenOutWordsDecode : Obligations.WrittenOutWordsDecode := by
  refine ⟨fun p => rfl, fun p hkey hcstate => ?_, rfl, rfl, rfl, rfl⟩
  obtain ⟨key, cstate⟩ := p
  obtain rfl : key = _ := hkey
  obtain rfl : cstate = _ := hcstate
  exact ⟨by decide, by decide⟩

end Sys2Proof.Machine
end

section
/-! PROOFS. The checksum validator (40_checksum_validator.md): `CHECK` as an equation over the packed word (R84), and
how many frames pass it (R85). -/

namespace Sys2Proof.Machine

/-! ### The packed equation -/

/-- `SUM_OK` as an equation between integers modulo 256 (R81). -/
theorem sumByte_eq_iff {b0 b1 b2 b3 : Byte} :
    sumByte b0 b1 b2 = b3 ↔ (b0.toNat + b1.toNat + b2.toNat) % 256 = b3.toNat := by
  rw [← BitVec.toNat_inj, sumByte, BitVec.toNat_ofNat, Nat.mod_mod]

/-- Bits 31:0 of a packed frame are its last four bytes (R42). -/
theorem extractLsb'_lowHalf (w : Word) :
    w.extractLsb' 0 32 = byteAt w 4 ++ byteAt w 5 ++ byteAt w 6 ++ byteAt w 7 := by
  have h45 : byteAt w 4 ++ byteAt w 5 = w.extractLsb' 16 16 :=
    BitVec.extractLsb'_append_extractLsb'_eq_extractLsb' rfl
  have h456 : w.extractLsb' 16 16 ++ byteAt w 6 = w.extractLsb' 8 24 :=
    BitVec.extractLsb'_append_extractLsb'_eq_extractLsb' rfl
  have h4567 : w.extractLsb' 8 24 ++ byteAt w 7 = w.extractLsb' 0 32 :=
    BitVec.extractLsb'_append_extractLsb'_eq_extractLsb' rfl
  rw [h45, h456, h4567]

/-- Two words put together from parts of the same widths are equal exactly part by part. -/
theorem bitVec_append_inj {m n : Nat} {a c : BitVec m} {b d : BitVec n} : a ++ b = c ++ d ↔ a = c ∧ b = d := by
  refine ⟨fun h => ⟨?_, ?_⟩, fun ⟨hhigh, hlow⟩ => hhigh ▸ hlow ▸ rfl⟩
  · simpa only [BitVec.extractLsb'_append_eq_left] using congrArg (BitVec.extractLsb' n m) h
  · simpa only [BitVec.extractLsb'_append_eq_right] using congrArg (BitVec.extractLsb' 0 n) h

/-- `TRAILER_OK` as one equality over the low half of the packed word (R82, R84). -/
theorem extractLsb'_lowHalf_eq_trailer {w : Word} :
    w.extractLsb' 0 32 = 0x0D000000#32 ↔
      byteAt w 4 = trailer4 ∧ byteAt w 5 = trailer567 ∧ byteAt w 6 = trailer567 ∧ byteAt w 7 = trailer567 := by
  have htrailer : 0x0D000000#32 = trailer4 ++ trailer567 ++ trailer567 ++ trailer567 := rfl
  rw [extractLsb'_lowHalf, htrailer, bitVec_append_inj, bitVec_append_inj, bitVec_append_inj, and_assoc,
    and_assoc]

/-! ### Counting the frames that pass -/

/-- A frame that passes `CHECK` is a choice of its bytes 0 to 2 (R85). -/
def checkedFrameEquiv : { w : Word // checkWord w = true } ≃ Byte × Byte × Byte where
  toFun w := (byteAt w.1 0, byteAt w.1 1, byteAt w.1 2)
  invFun b := ⟨plaintextWord b.1 b.2.1 b.2.2, checkWord_plaintextWord b.1 b.2.1 b.2.2⟩
  left_inv w := Subtype.ext (plaintextWord_of_checkWord w.2)
  right_inv b := by simp

theorem natCard_bitVec (n : Nat) : Nat.card (BitVec n) = 2 ^ n :=
  Nat.card_eq_of_equiv_fin BitVec.equivFin.toEquiv

/-! ### The statements -/

/-- Settles O9: the sum and the trailer of `CHECK`, each as its equation over the packed word. -/
theorem checkIsThePackedEquation : Obligations.CheckIsThePackedEquation := fun _ =>
  checkWord_eq_true.trans (and_congr sumByte_eq_iff extractLsb'_lowHalf_eq_trailer.symm)

/-- Settles O11: bytes 0 to 2 are free and determine the rest, so the frames that pass are as many as three bytes. -/
theorem exactlyTwoToThe24FramesPassCheck : Obligations.ExactlyTwoToThe24FramesPassCheck := by
  have hbyte : Nat.card Byte = 2 ^ 8 := natCard_bitVec 8
  calc Nat.card { w : Word // checkWord w = true }
      = Nat.card (Byte × Byte × Byte) := Nat.card_congr checkedFrameEquiv
    _ = 2 ^ 8 * (2 ^ 8 * 2 ^ 8) := by rw [Nat.card_prod, Nat.card_prod, hbyte]
    _ = 2 ^ 24 := by norm_num

end Sys2Proof.Machine
end

section
/-! PROOFS. The decode policy (41_decode_policy.md): the class of a frame and the triple `DECODE` gives for it (R90 to
R98), what running a frame class loads (R38), and how many frames each class has (R99). -/

namespace Sys2Proof.Machine

/-! ### `DECODE`, attempt by attempt -/

section Decode

variable {p : Params} {d : Word}

/-- The first attempt decides alone: nothing is asked of the transformed bytes (R91). -/
theorem decodeFrame_of_raw_pass (hraw : checkWord d = true) : decodeFrame p d = ⟨true, .raw, d⟩ := by
  simp [decodeFrame, hraw]

/-- The second attempt is asked only where the first one fails (R92). -/
theorem decodeFrame_of_xf_pass (hraw : checkWord d = false) (hxf : checkWord (decryptWord p d) = true) :
    decodeFrame p d = ⟨true, .xf, decryptWord p d⟩ := by
  simp [decodeFrame, hraw, hxf]

/-- The error carries the transformed bytes (R93). -/
theorem decodeFrame_of_both_fail (hraw : checkWord d = false) (hxf : checkWord (decryptWord p d) = false) :
    decodeFrame p d = ⟨false, .xf, decryptWord p d⟩ := by
  simp [decodeFrame, hraw, hxf]

/-- `ok = 1` exactly when one of the attempts passes (R90). -/
theorem decodeFrame_ok_iff :
    (decodeFrame p d).ok = true ↔ checkWord d = true ∨ checkWord (decryptWord p d) = true := by
  obtain ⟨hraw, hdec⟩ | ⟨-, hxf, hdec⟩ | ⟨hraw, hxf, hdec⟩ := decodeFrame_cases p d
  · simp [hdec, hraw]
  · simp [hdec, hxf]
  · simp [hdec, hraw, hxf]

/-- An error of `DECODE` comes from the second attempt (R98). -/
theorem decodeFrame_path_of_not_ok (hok : (decodeFrame p d).ok = false) : (decodeFrame p d).path = .xf := by
  obtain ⟨-, hdec⟩ | ⟨-, -, hdec⟩ | ⟨-, -, hdec⟩ := decodeFrame_cases p d
  · rw [hdec] at hok
    cases hok
  · rw [hdec]
  · rw [hdec]

end Decode

/-- The sum and the trailer of a frame that passes `CHECK`, read off the packed word (R81, R82, R94). -/
theorem sum_and_trailer_of_checkWord {w : Word} (h : checkWord w = true) :
    byteAt w 3 = byteAt w 0 + byteAt w 1 + byteAt w 2 ∧ w.extractLsb' 0 32 = 0x0D000000#32 := by
  obtain ⟨hsum, htrailer⟩ := checkWord_eq_true.mp h
  exact ⟨by rw [← hsum, sumByte_eq], extractLsb'_lowHalf_eq_trailer.mpr htrailer⟩

/-! ### What the decoders read is well-formed -/

/-- A frame is read as a class whose row predicate it meets (R90, R95). -/
theorem wellFormed_decodeWord (p : Params) (d : Word) : (decodeWord p d).wellFormed p = true := by
  obtain ⟨-, hdec⟩ | ⟨hwf, hdec⟩ | ⟨hwf, hdec⟩ := decodeWord_cases p d
  · rw [hdec, Instr.wellFormed]
  · rw [hdec, hwf]
  · rw [hdec, hwf]

/-- A word is read as an operation class whose row predicate it meets (R65, R68). -/
theorem wellFormed_classify (p : Params) (w : Word) : (classify w).wellFormed p = true := by
  obtain ⟨-, hclass⟩ | ⟨-, hclass⟩ | ⟨-, hclass⟩ | ⟨hother, hclass⟩ := classify_cases w
  · rw [hclass, Instr.wellFormed]
  · rw [hclass, Instr.wellFormed]
  · rw [hclass, Instr.wellFormed]
  · rw [hclass, Instr.wellFormed, hother]

/-! ### Counting the frames of each class -/

/-- `DECRYPT` of packed frames, with `E` as its inverse (R106). -/
def decryptEquiv (p : Params) : Word ≃ Word where
  toFun := decryptWord p
  invFun := obfuscateWord p
  left_inv _ := (decryptWord_eq_iff.mp rfl).symm
  right_inv _ := decryptWord_eq_iff.mpr rfl

/-- As many frames pass after `DECRYPT` as pass as they stand (R85, R106). -/
theorem natCard_checkWord_decryptWord (p : Params) :
    Nat.card { d : Word // checkWord (decryptWord p d) = true } = 2 ^ 24 :=
  (Nat.card_congr ((decryptEquiv p).subtypeEquiv fun _ => Iff.rfl)).trans exactlyTwoToThe24FramesPassCheck

/-- Frames sorted into two disjoint kinds are counted kind by kind. -/
theorem natCard_add_of_disjoint {P Q R : Word → Prop} (hdisj : ∀ d, P d → ¬Q d) (hcover : ∀ d, P d ∨ Q d ↔ R d) :
    Nat.card { d // P d } + Nat.card { d // Q d } = Nat.card { d // R d } := by
  classical
  have hPQ : Disjoint P Q := Pi.disjoint_iff.mpr fun d => Prop.disjoint_iff.mpr fun h => hdisj d h.1 h.2
  calc Nat.card { d // P d } + Nat.card { d // Q d }
      = Nat.card ({ d // P d } ⊕ { d // Q d }) := Nat.card_sum.symm
    _ = Nat.card { d // P d ∨ Q d } := (Nat.card_congr (subtypeOrEquiv P Q hPQ)).symm
    _ = Nat.card { d // R d } := Nat.card_congr (Equiv.subtypeEquivRight hcover)

/-! ### The statements -/

/-- Settles O8: the class a decoder reads and the row predicate it meets, case by case. -/
theorem decodedInstructionsAreWellFormed : Obligations.DecodedInstructionsAreWellFormed := by
  refine fun p w => ⟨wellFormed_decodeWord p w, ?frame, fun i hi => ?checked⟩
  case frame =>
    obtain ⟨hraw, hdec⟩ | ⟨hwf, hdec⟩ | ⟨hwf, hdec⟩ := decodeWord_cases p w
    · exact .inl ⟨hraw, hdec⟩
    · obtain ⟨hraw, hxf⟩ := wellFormed_obfuscated.mp hwf
      exact .inr (.inl ⟨hraw, hxf, hdec⟩)
    · obtain ⟨hraw, hxf⟩ := wellFormed_invalid.mp hwf
      exact .inr (.inr ⟨hraw, hxf, hdec⟩)
  case checked =>
    obtain ⟨-, rfl⟩ := decodeChecked_eq_ok.mp hi
    exact ⟨wellFormed_classify p w, (classify_cases w).imp_right (.imp_right (.imp_right And.right))⟩

/-- Settles O27: the bytes of an `Ok` result passed one of the attempts, and `CHECK` fixes their sum and trailer. -/
theorem okResultsCarryCheckedBytes : Obligations.OkResultsCarryCheckedBytes := by
  refine fun p d => ⟨fun hok => ?_, decodeFrame_ok_iff⟩
  have hcheck := checkWord_decodeFrame hok
  exact ⟨hcheck, sum_and_trailer_of_checkWord hcheck⟩

/-- Settles O28: the frames that pass after `DECRYPT` are split by the raw check, and so are all frames, those that
fail it being split again by the second attempt. -/
theorem frameClassesCountTheFrames : Obligations.FrameClassesCountTheFrames := by
  intro p
  have hxf : Nat.card { d : Word // checkWord d = false ∧ checkWord (decryptWord p d) = true } +
      Nat.card { d : Word // checkWord d = true ∧ checkWord (decryptWord p d) = true } =
      Nat.card { d : Word // checkWord (decryptWord p d) = true } :=
    natCard_add_of_disjoint (by simp +contextual) fun d => by cases checkWord d <;> simp
  have hrawFail : Nat.card { d : Word // checkWord d = false ∧ checkWord (decryptWord p d) = true } +
      Nat.card { d : Word // checkWord d = false ∧ checkWord (decryptWord p d) = false } =
      Nat.card { d : Word // checkWord d = false } :=
    natCard_add_of_disjoint (by simp +contextual) fun d => by cases checkWord (decryptWord p d) <;> simp
  have hall : Nat.card { d : Word // checkWord d = true } + Nat.card { d : Word // checkWord d = false } =
      Nat.card { _d : Word // True } :=
    natCard_add_of_disjoint (by simp +contextual) fun d => by cases checkWord d <;> simp
  refine ⟨hxf.trans (natCard_checkWord_decryptWord p), ?_⟩
  rw [add_assoc, hrawFail, hall, Nat.card_subtype_true, natCard_bitVec]

/-- Settles O37: `loadDecoded` is the update the statement writes out. -/
theorem frameClassesRefineDecode : Obligations.FrameClassesRefineDecode :=
  exec_decodeWord

/-- Settles O23. -/
theorem rawPassDecodesRaw : Obligations.RawPassDecodesRaw := by
  intro p d hraw
  rw [decodeFrame_of_raw_pass hraw]
  exact ⟨rfl, rfl⟩

/-- Settles O24: the transformed bytes pass the raw check, so `DECODE` of them does not transform them again. -/
theorem transformedPassDecodesOnce : Obligations.TransformedPassDecodesOnce := by
  intro p d hraw hxf
  rw [decodeFrame_of_xf_pass hraw hxf, decodeFrame_of_raw_pass hxf]
  exact ⟨rfl, rfl, rfl⟩

/-- Settles O25. -/
theorem bothFailGivesTheTransformedBytes : Obligations.BothFailGivesTheTransformedBytes := by
  intro p d hraw hxf
  rw [decodeFrame_of_both_fail hraw hxf]
  exact ⟨rfl, rfl⟩

/-- Settles O26. -/
theorem decodeNeverGivesTheReservedPair : Obligations.DecodeNeverGivesTheReservedPair := fun p d =>
  ⟨decodeFrame_path_of_not_ok, decodeFrame_not_reserved p d⟩

/-- Settles O32: the arm of `PLAIN` is the load of its plaintext frame on the raw path. -/
theorem plainLoadsTheRawFrame : Obligations.PlainLoadsTheRawFrame := fun _ _ _ _ => rfl

/-- Settles O33: the arm of `OBFUSCATED` is the load of the transformed bytes on path `XF`. -/
theorem obfuscatedLoadsTheTransformedFrame : Obligations.ObfuscatedLoadsTheTransformedFrame := fun _ _ => rfl

/-- Settles O34: the arm of `INVALID` is `raiseChecksumError` with the transformed bytes. -/
theorem invalidReportsTheChecksumError : Obligations.InvalidReportsTheChecksumError := fun _ _ => rfl

end Sys2Proof.Machine
end

section
/-! PROOFS. The transform of a frame (42_frame_deobfuscator.md): its steps (R101 to R105), its inverse (R106), and the
forms of the whole of it, on the packed word (R108), on one byte (R110) and as what each byte depends on (R109). -/

namespace Sys2Proof.Machine

/-! ### The order of the bytes -/

/-- The index before `i` modulo 8 is `i - 1` (R103). -/
theorem byteIx_eq_sub_one {i j : ByteIx} (h : j.val = (i.val + 8 - 1) % 8) : j = i - 1 := by
  have hi := i.isLt
  apply Fin.ext
  obtain ⟨hzero, hlast⟩ | hpred := val_byteIx_pred i <;> omega

/-- `SHUFFLE` and `INV` are one table (R32). -/
theorem shuffleInv_eq_shuffle : shuffleInv = shuffle := rfl

/-- `SHUFFLE` exchanges its two arguments (R32). -/
theorem shuffle_eq_iff {i j : ByteIx} : shuffle i = j ↔ shuffle j = i := by
  constructor <;> rintro rfl <;> exact shuffle_shuffle _

theorem shuffle_bijective : Function.Bijective shuffle :=
  Function.Involutive.bijective shuffle_shuffle

/-- Step a in its source form (R101). -/
theorem permute_apply (d : Bytes) (j : ByteIx) : permute d j = d (shuffle j) := rfl

/-- Step a in its destination form (R101). -/
theorem permute_shuffle (d : Bytes) (i : ByteIx) : permute d (shuffle i) = d i :=
  congrArg d (shuffle_shuffle i)

/-- Step a written out (R101). -/
theorem permute_eq_vec (d : Bytes) : permute d = ![d 2, d 4, d 0, d 7, d 1, d 6, d 5, d 3] :=
  funext (forall_byteIx rfl rfl rfl rfl rfl rfl rfl rfl)

/-! ### The bytes of steps c, d and e -/

/-- The bottom three bits of the byte before, above the top five of the byte itself (R103). -/
theorem rotate3_eq_append (x : Bytes) (i : ByteIx) :
    rotate3 x i = (x (i - 1)).extractLsb' 0 3 ++ (x i).extractLsb' 3 5 := by
  refine BitVec.eq_of_getLsbD_eq fun j hj => ?_
  rw [getLsbD_rotate3 x i hj, BitVec.getLsbD_append]
  split
  case isTrue hlow => simp [hlow]
  case isFalse hhigh => simp [show j - 5 < 3 by omega]

/-- The nibbles of a byte of the mask are those of `CSTATE` exchanged (R104). -/
theorem ctmp_eq_append (p : Params) (i : ByteIx) :
    ctmp p i = (p.cstate i).extractLsb' 0 4 ++ (p.cstate i).extractLsb' 4 4 := by
  refine BitVec.eq_of_getLsbD_eq fun j hj => ?_
  rw [ctmp, BitVec.getLsbD_or, BitVec.getLsbD_ushiftRight, BitVec.getLsbD_shiftLeft, BitVec.getLsbD_append]
  split
  case isTrue hlow => simp [hlow]
  case isFalse hhigh => simp [hj, hhigh, show j - 4 < 4 by omega, show 8 ≤ 4 + j by omega]

/-- A left shift of a byte as integers: computed without bound, then cut to eight bits (R8). -/
theorem toNat_byte_shiftLeft (a : Byte) (n : Nat) : (a <<< n).toNat = (a.toNat <<< n) &&& 0xFF := by
  rw [BitVec.toNat_shiftLeft]
  exact (Nat.and_two_pow_sub_one_eq_mod _ 8).symm

/-- The shape of steps c and d on integers: one byte shifted down, another shifted up and cut (R103, R104). -/
theorem toNat_shiftRight_or_shiftLeft (a b : Byte) (m n : Nat) :
    ((a >>> m) ||| (b <<< n)).toNat = (a.toNat >>> m) ||| ((b.toNat <<< n) &&& 0xFF) := by
  rw [BitVec.toNat_or, BitVec.toNat_ushiftRight, toNat_byte_shiftLeft]

/-- Cutting the whole is cutting the byte shifted up, as the byte shifted down fits already (R103, R104). -/
theorem or_shiftLeft_and_mask (a b : Byte) (m n : Nat) :
    (a.toNat >>> m) ||| ((b.toNat <<< n) &&& 0xFF) = ((a.toNat >>> m) ||| (b.toNat <<< n)) &&& 0xFF := by
  have hfits : (a.toNat >>> m) &&& 0xFF = a.toNat >>> m :=
    (Nat.and_two_pow_sub_one_eq_mod _ 8).trans
      (Nat.mod_eq_of_lt ((Nat.shiftRight_le _ _).trans_lt a.isLt))
  rw [Nat.and_or_distrib_right, hfits]

/-- Step e on integers with the remainder that is never negative (R105). -/
theorem intCast_toNat_subByte (a b : Byte) : ((subByte a b).toNat : Int) = ((a.toNat : Int) - b.toNat) % 256 := by
  have hb := b.isLt
  rw [subByte, BitVec.toNat_ofNat]
  omega

/-! ### The packed word -/

theorem byteAt_xor (v w : Word) (i : ByteIx) : byteAt (v ^^^ w) i = byteAt v i ^^^ byteAt w i :=
  BitVec.extractLsb'_xor

/-- Step b on the packed word (R108). -/
theorem pack_xorKey (p : Params) (x : Bytes) : pack (xorKey p x) = pack x ^^^ pack p.key :=
  eq_of_byteAt fun i => by rw [byteAt_xor, byteAt_pack, byteAt_pack, byteAt_pack, xorKey]

/-- Step e on the packed word (R108). -/
theorem pack_subMask (p : Params) (x : Bytes) : pack (subMask p x) = bytewiseSub (pack x) (pack (ctmp p)) :=
  eq_of_byteAt fun i => by rw [bytewiseSub, byteAt_pack, byteAt_pack, byteAt_pack, byteAt_pack, subMask]

/-- No borrow passes between the lanes of the packed subtraction (R108). -/
theorem byteAt_bytewiseSub (a b : Word) (i : ByteIx) :
    byteAt (bytewiseSub a b) i = byteAt a i - byteAt b i := by
  rw [bytewiseSub, byteAt_pack, subByte_eq]

/-! ### One byte of `DECRYPT` -/

/-- The two masked bytes that byte `i` is cut from, and the mask taken off it (R110). -/
theorem decrypt_apply (p : Params) (d : Bytes) (i : ByteIx) :
    decrypt p d i =
      subByte (((d (shuffle i) ^^^ p.key i) >>> 3) ||| ((d (shuffle (i - 1)) ^^^ p.key (i - 1)) <<< 5))
        (ctmp p i) := rfl

/-- Two arrays give the same byte of `DECRYPT` exactly when their rotated bytes agree there: step e subtracts the
same mask byte from both (R105). -/
theorem decrypt_apply_eq_iff_rotate3 {p : Params} {d e : Bytes} {i : ByteIx} :
    decrypt p d i = decrypt p e i ↔
      rotate3 (xorKey p (permute d)) i = rotate3 (xorKey p (permute e)) i := by
  rw [decrypt, decrypt, subMask, subMask, subByte_eq, subByte_eq, BitVec.sub_left_inj]

/-- The bits that byte `i` of `DECRYPT` depends on, and that it tells apart all their values (R109). -/
theorem decrypt_apply_eq_iff {p : Params} {d e : Bytes} {i : ByteIx} :
    decrypt p d i = decrypt p e i ↔
      (d (shuffle i)).extractLsb' 3 5 = (e (shuffle i)).extractLsb' 3 5 ∧
      (d (shuffle (i - 1))).extractLsb' 0 3 = (e (shuffle (i - 1))).extractLsb' 0 3 := by
  rw [decrypt_apply_eq_iff_rotate3, rotate3_eq_append, rotate3_eq_append, bitVec_append_inj, and_comm]
  simp only [xorKey, permute_apply, BitVec.extractLsb'_xor, BitVec.xor_left_inj]

/-! ### Flipping one bit -/

/-- The array `d` with bit `b` of byte `k` flipped. -/
def flipBit (d : Bytes) (k : ByteIx) (b : Fin 8) : Bytes := Function.update d k (d k ^^^ (1#8 <<< b.val))

/-- The one byte of `DECRYPT` that bit `b` of byte `k` reaches: step a moves the byte to `SHUFFLE[k]`, and step c
keeps its top five bits there and hands its bottom three to the next byte (R101, R103). -/
def reachedByte (k : ByteIx) (b : Fin 8) : ByteIx := if b.val < 3 then shuffle k + 1 else shuffle k

section FlipBit

variable {d : Bytes} {k l : ByteIx} {b : Fin 8}

/-- A flip leaves a field of a byte as it was exactly when it is in another byte or its bit is outside the field. -/
theorem extractLsb'_flipBit_eq_iff {start len : Nat} :
    (flipBit d k b l).extractLsb' start len = (d l).extractLsb' start len ↔
      (l = k → (1#8 <<< b.val).extractLsb' start len = 0#len) := by
  by_cases hl : l = k
  · subst hl
    simp [flipBit, BitVec.extractLsb'_xor]
  · simp [flipBit, hl]

/-- The bits outside the top five of a byte. -/
theorem extractLsb'_high_oneBit_eq_zero_iff : (1#8 <<< b.val).extractLsb' 3 5 = 0#5 ↔ b.val < 3 := by
  revert b
  decide

/-- The bits outside the bottom three of a byte. -/
theorem extractLsb'_low_oneBit_eq_zero_iff : (1#8 <<< b.val).extractLsb' 0 3 = 0#3 ↔ ¬b.val < 3 := by
  revert b
  decide

/-- A flipped bit changes the byte of `DECRYPT` it reaches and no other (R109). -/
theorem decrypt_flipBit_eq_iff {p : Params} {i : ByteIx} :
    decrypt p (flipBit d k b) i = decrypt p d i ↔ i ≠ reachedByte k b := by
  rw [decrypt_apply_eq_iff, extractLsb'_flipBit_eq_iff, extractLsb'_flipBit_eq_iff,
    extractLsb'_high_oneBit_eq_zero_iff, extractLsb'_low_oneBit_eq_zero_iff, shuffle_eq_iff (i := i),
    shuffle_eq_iff (i := i - 1), eq_sub_iff_add_eq, reachedByte, ne_comm]
  split
  case isTrue hlow => simp [hlow]
  case isFalse hhigh => simp [hhigh]

end FlipBit

/-! ### The statements -/

/-- Settles O17: each step has its inverse, and `DECRYPT` has `E`. -/
theorem decryptAndObfuscateAreInverse : Obligations.DecryptAndObfuscateAreInverse := fun p =>
  ⟨fun x => ⟨decrypt_obfuscate p x, obfuscate_decrypt p x⟩,
    Function.bijective_iff_has_inverse.mpr ⟨unpermute, unpermute_permute, permute_unpermute⟩,
    Function.Involutive.bijective (xorKey_xorKey p),
    Function.bijective_iff_has_inverse.mpr ⟨unrotate3, unrotate3_rotate3, rotate3_unrotate3⟩,
    Function.bijective_iff_has_inverse.mpr ⟨addMask p, addMask_subMask p, subMask_addMask p⟩,
    Function.bijective_iff_has_inverse.mpr ⟨obfuscate p, obfuscate_decrypt p, decrypt_obfuscate p⟩⟩

/-- Settles O13, the two bit fields read off the byte as the join of its parts. -/
theorem rotationTakesBitsFromTwoBytes : Obligations.RotationTakesBitsFromTwoBytes := by
  intro x i j hj
  obtain rfl := byteIx_eq_sub_one hj
  refine ⟨?_, ?_, ?_⟩
  · rw [rotate3, toNat_shiftRight_or_shiftLeft, or_shiftLeft_and_mask]
  · rw [rotate3_eq_append, BitVec.extractLsb'_append_eq_right]
  · rw [rotate3_eq_append, BitVec.extractLsb'_append_eq_left]

/-- Settles O15, the two nibbles read off the byte as the join of its parts. -/
theorem maskIsTheNibbleSwapOfCState : Obligations.MaskIsTheNibbleSwapOfCState := by
  intro p i
  refine ⟨?_, ?_, ?_⟩
  · rw [ctmp_eq_append, BitVec.extractLsb'_append_eq_left]
  · rw [ctmp_eq_append, BitVec.extractLsb'_append_eq_right]
  · rw [ctmp, toNat_shiftRight_or_shiftLeft, or_shiftLeft_and_mask]

/-- Settles O16: byte `i` of step e is a function of `x[i]` and `CTMP[i]` alone. -/
theorem maskIsSubtractedByteByByte : Obligations.MaskIsSubtractedByteByByte := by
  intro p x i
  refine ⟨?_, intCast_toNat_subByte _ _, fun y hy => ?_⟩
  · rw [subMask, subByte, BitVec.toNat_ofNat, Nat.mod_mod]
  · rw [subMask, hy, subMask]

/-- Settles O19, with each step of `DECRYPT` taken to its form on the packed word. -/
theorem decryptOnThePackedWord : Obligations.DecryptOnThePackedWord := by
  intro p d
  refine ⟨?_, byteAt_bytewiseSub⟩
  rw [decrypt, pack_subMask, (rotationIsRor64OfThePackedWord _).1, pack_xorKey, permute_eq_vec]

/-- Settles O20: step e on integers, on the two bytes that step c puts together. -/
theorem decryptOneByte : Obligations.DecryptOneByte := by
  intro p d i j hj
  obtain rfl := byteIx_eq_sub_one hj
  rw [decrypt_apply, intCast_toNat_subByte, toNat_shiftRight_or_shiftLeft]

/-- Settles O21: step c joins the two fields, and steps b and e keep which arrays agree on them. -/
theorem outputByteDependsOnTwoInputBytes : Obligations.OutputByteDependsOnTwoInputBytes := by
  intro p d e i j hj
  obtain rfl := byteIx_eq_sub_one hj
  exact decrypt_apply_eq_iff

/-- Settles O22: the byte that changes is the one the flipped bit is moved to. -/
theorem oneFlippedBitChangesOneOutputByte : Obligations.OneFlippedBitChangesOneOutputByte := fun _ _ k b =>
  ⟨reachedByte k b, fun h => decrypt_flipBit_eq_iff.mp h rfl, fun _ hj => decrypt_flipBit_eq_iff.mpr hj⟩

/-- Settles O12: each form of step a follows from the table being its own inverse. -/
theorem permutationPutsEachByteAtItsDestination : Obligations.PermutationPutsEachByteAtItsDestination :=
  ⟨⟨rfl, shuffle_bijective, shuffleInv_eq_shuffle, fun _ _ => shuffle_eq_iff⟩,
    fun d => ⟨permute_shuffle d, permute_apply d, permute_eq_vec d⟩⟩

end Sys2Proof.Machine
end

section
/-! PROOFS. The frame parser (43_frame_parser.md): what running an operation class delivers (R120 to R122). -/

namespace Sys2Proof.Machine

/-- Settles O36: `takeResult` is the update the statement writes out, and `exec_classify` shows, class by class, that
the record taken has the code and the value the parser reads from the word. -/
theorem everyCodeIsPassedThrough : Obligations.EveryCodeIsPassedThrough := fun s w =>
  exec_classify w s

/-- Settles O35: the arm of each class takes the record of its own code, and the value is the two value bytes put
together, the high byte first (R121). -/
theorem operationClassesDeliverTheRecord : Obligations.OperationClassesDeliverTheRecord := by
  intro op vhi vlo s
  rw [← valueOf_eq_append]
  exact ⟨rfl, rfl, rfl, rfl⟩

end Sys2Proof.Machine
end

section
/-! PROOFS. Errors (60_exceptions.md): no run stops (R131, R135), the reserved pair faults (R132), and what the block
does after an error (R135) and while idle (R146). -/

namespace Sys2Proof.Machine

/-! ### Runs -/

/-- A property that every step can go on from and keeps can be run on from for any number of steps. -/
theorem run_next_of_invariant {P : State → Prop} (hprogress : ∀ s, P s → ∃ t, step s = .next t ∧ P t)
    (k : Nat) : ∀ s, P s → ∃ t, Host.Core.run Sys2Proof.core k s = .next t ∧ P t := by
  induction k with
  | zero => exact fun s hs => ⟨s, rfl, hs⟩
  | succ k ih =>
    intro s hs
    obtain ⟨u, hstep, hu⟩ := hprogress s hs
    obtain ⟨t, hrun, ht⟩ := ih u hu
    exact ⟨t, (run_succ hstep).trans hrun, ht⟩

/-- The invariant has the two premises of the clock edge rule, so a step from it answers a next state. -/
theorem step_next_of_blockInv {s : State} (h : BlockInv s) : ∃ t, step s = .next t ∧ BlockInv t := by
  obtain ⟨t, hstep, -⟩ := stepFollowsTheClockEdgeRule s h.resetSeen h.statusLegal
  exact ⟨t, hstep, everyStepKeepsTheStream s t h hstep⟩

/-! ### The two results with `r_ok = 0` -/

/-- The take of the reserved pair is the fault of R132. -/
theorem deliver_of_reserved {s : State} (h : statusOf s.rOk s.rPath = .reserved) :
    deliver s = .fault .reservedStatus := by
  simp only [deliver, h]

/-- A fault of the take is the fault of the edge: no frame is loaded after it. -/
theorem transferEdge_of_takePhase_fault {p : PortSample} {s : State} {f : Fault}
    (h : takePhase (outFire s p) s = .fault f) : transferEdge p s = .fault f := by
  simp only [transferEdge, h]

/-- With `r_path = XF` the status pair is legal, whether or not the result is a ChecksumError (R132). -/
theorem statusLegal_of_xf {s : State} (hpath : s.rPath = .xf) : StatusLegal s := by
  intro _
  cases hok : s.rOk <;> simp [hpath, statusOf]

theorem heldResult_of_not_rOk {s : State} (h : s.rOk = false) : heldResult s = .chkErr s.rBytes := by
  simp [heldResult, h]

@[simp] theorem heldResult_loadDecoded (x : Decoded) (s : State) : heldResult (loadDecoded x s) = decodedResult x :=
  rfl

/-! ### Steps with `rst = 0` -/

section Transfer

variable {s : State} (hseen : s.resetSeen = true) (hrst : s.ports.rst = false)
include hseen hrst

/-- A step with `rst = 0` after a reset is a transfer edge, whatever the status pair (R38). -/
theorem step_eq_transferEdge : step s = transferEdge s.ports (countEdge (consumeSample s)) := by
  simp [step, clockEdge, hrst, hseen]

/-- With neither transfer the edge only uses up its port sample and is counted (R38). -/
theorem step_of_no_fire (hlegal : StatusLegal s) (hin : inFire s s.ports = false)
    (hout : outFire s s.ports = false) : step s = .next (countEdge (consumeSample s)) := by
  rw [step_eq_afterLoad hseen hlegal hrst, hin, hout, afterLoad_false, afterTake_false]

end Transfer

/-! ### The statements -/

/-- Settles O51: from the invariant every step answers a next state (O38) and keeps the invariant (O49), so a run of
any length does. -/
theorem noRunStops : Obligations.NoRunStops :=
  run_next_of_invariant fun _ => step_next_of_blockInv

/-- Settles O43: at an edge that takes the error and loads the frame, the take appends the error to the results taken
and the load overwrites the register with `DECODE` of the frame. -/
theorem errorIsDeliveredAndTheBlockGoesOn : Obligations.ErrorIsDeliveredAndTheBlockGoesOn := by
  intro s hseen hvalid hok hpath hrst hready hin
  have hinFire : inFire s s.ports = true := inFire_eq_true.mpr ⟨hin, .inr hready, hrst⟩
  have houtFire : outFire s s.ports = true := outFire_eq_true.mpr ⟨hvalid, hready, hrst⟩
  refine ⟨_, step_eq_afterLoad hseen (statusLegal_of_xf hpath) hrst, ?_⟩
  rw [hinFire, houtFire, afterLoad_true, afterTake_true, heldResult_consume, heldResult_of_not_rOk hok]
  exact ⟨rfl, rfl, heldResult_loadDecoded _ _⟩

/-- Settles O42: `out_fire` holds, so the edge starts with the take, and the take of `(0, RAW)` faults. -/
theorem reservedPairFaultsWhenTaken : Obligations.ReservedPairFaultsWhenTaken := by
  intro s hseen hvalid hok hpath hrst hready
  have hreserved : statusOf s.rOk s.rPath = .reserved := by rw [hok, hpath]; rfl
  rw [step_eq_transferEdge hseen hrst]
  apply transferEdge_of_takePhase_fault
  rw [outFire_consume, outFire_eq_true.mpr ⟨hvalid, hready, hrst⟩, takePhase_true]
  exact deliver_of_reserved hreserved

/-- Settles O45: an empty register gives no take and no offered frame gives no load. -/
theorem idleBlockChangesNoRegister : Obligations.IdleBlockChangesNoRegister := fun _ hseen hempty hrst hin =>
  ⟨_, step_of_no_fire hseen hrst (statusLegal_of_empty hempty) (inFire_of_not_inValid hin)
    (outFire_of_empty_or_not_outReady (.inl hempty)), hempty, ⟨rfl, rfl, rfl, rfl⟩, rfl, rfl⟩

end Sys2Proof.Machine
end

section
/-! PROOFS. Reset and hazards (70_reset_and_hazards.md): the reset edge and a held reset (R150 to R152), frames under a
wrong key (R154), back-pressure (R158), and latency and throughput (R160). -/

namespace Sys2Proof.Machine

/-! ### `DECRYPT` under two keys -/

section TwoKeys

variable {p q : Params}

theorem subMask_of_cstate_eq (h : p.cstate = q.cstate) : subMask p = subMask q := by
  funext x i
  rw [subMask, subMask, ctmp, ctmp, h]

/-- Step b tells any two keys apart, on every array (R102). -/
theorem xorKey_eq_xorKey_iff {x : Bytes} : xorKey p x = xorKey q x ↔ p.key = q.key := by
  rw [funext_iff, funext_iff]
  exact forall_congr' fun i => BitVec.xor_right_inj (x i)

/-- With one mask, two keys agree on a frame only where they are equal: the steps after the exclusive-or with `KEY` are
injective (R103 to R106). -/
theorem decrypt_eq_decrypt_iff (h : p.cstate = q.cstate) {d : Bytes} :
    decrypt p d = decrypt q d ↔ p.key = q.key := by
  have hmask : Function.Injective (subMask q) := Function.LeftInverse.injective (addMask_subMask q)
  have hrotate : Function.Injective rotate3 := Function.LeftInverse.injective unrotate3_rotate3
  rw [decrypt, decrypt, subMask_of_cstate_eq h, hmask.eq_iff, hrotate.eq_iff, xorKey_eq_xorKey_iff]

theorem decryptWord_eq_decryptWord_iff (h : p.cstate = q.cstate) {d : Word} :
    decryptWord p d = decryptWord q d ↔ p.key = q.key := by
  have hpack : Function.Injective pack := Function.LeftInverse.injective unpack_pack
  rw [decryptWord, decryptWord, hpack.eq_iff, decrypt_eq_decrypt_iff h]

/-- A frame that fails the raw check is answered with its transformed bytes, record or error (R90). -/
theorem decodeFrame_bytes_of_raw_fail {d : Word} (hraw : checkWord d = false) :
    (decodeFrame p d).bytes = decryptWord p d := by
  cases hxf : checkWord (decryptWord p d) with
  | true => rw [decodeFrame_of_xf_pass hraw hxf]
  | false => rw [decodeFrame_of_both_fail hraw hxf]

end TwoKeys

/-! ### Registers, ports and port samples -/

theorem sameRegisters_refl (s : State) : SameRegisters s s := ⟨rfl, rfl, rfl, rfl⟩

theorem sameRegisters_trans {s t u : State} (hst : SameRegisters s t) (htu : SameRegisters t u) :
    SameRegisters s u := by
  obtain ⟨hvalid, hok, hpath, hbytes⟩ := hst
  obtain ⟨hvalid', hok', hpath', hbytes'⟩ := htu
  exact ⟨hvalid.trans hvalid', hok.trans hok', hpath.trans hpath', hbytes.trans hbytes'⟩

/-- An empty register is ready, whatever the consumer does (R37). -/
theorem inReady_of_empty {s : State} (h : s.rValid = false) (p : PortSample) : inReady s p = true :=
  inReady_eq_true.mpr (.inl h)

theorem ports_of_inputs_cons {s : State} {p : PortSample} {rest : List PortSample} (h : s.inputs = p :: rest) :
    s.ports = p := by
  rw [State.ports, h, List.headD_cons]

theorem inputs_tail_of_cons {s : State} {p : PortSample} {rest : List PortSample} (h : s.inputs = p :: rest) :
    s.inputs.tail = rest := by
  rw [h, List.tail_cons]

/-! ### The reset edge -/

/-- While a reset is held a further reset edge changes no register (R152). -/
theorem sameRegisters_resetEdge {s : State} (hheld : s.inReset = true) (hempty : s.rValid = false) :
    SameRegisters s (resetEdge s) := by
  simp [SameRegisters, hheld, hempty]

/-- `State.reset` is the state that a further edge of its own reset leaves. -/
theorem resetEdge_reset : resetEdge State.reset = State.reset := rfl

/-- A held reset goes on over any number of port samples with `rst = 1` (R152). -/
theorem run_of_held_reset (rs rest : List PortSample) (hrst : ∀ r ∈ rs, r.rst = true) :
    ∀ s : State, s.inReset = true → s.rValid = false → s.inputs = rs ++ rest →
      ∃ t, Host.Core.run Sys2Proof.core rs.length s = .next t ∧ SameRegisters s t ∧ t.inReset = true ∧
        t.inputs = rest := by
  induction rs with
  | nil => exact fun s hheld _ hinputs => ⟨s, rfl, sameRegisters_refl s, hheld, hinputs⟩
  | cons r rs ih =>
    intro s hheld hempty hinputs
    obtain ⟨hr, hrs⟩ := List.forall_mem_cons.mp hrst
    have hstep : step s = .next (resetEdge (consumeSample s)) :=
      step_of_rst (by rwa [ports_of_inputs_cons hinputs])
    obtain ⟨t, hrun, hsame, hreset, hrest⟩ :=
      ih hrs (resetEdge (consumeSample s)) rfl rfl (inputs_tail_of_cons hinputs)
    have hfirst : SameRegisters s (resetEdge (consumeSample s)) :=
      sameRegisters_resetEdge (s := consumeSample s) hheld hempty
    exact ⟨t, (run_succ hstep).trans hrun, sameRegisters_trans hfirst hsame, hreset, hrest⟩

/-! ### Before the first reset -/

/-- An edge without reset in the power-up state has no meaning (R150, U2). -/
theorem step_of_no_reset {s : State} (hseen : s.resetSeen = false) (hrst : s.ports.rst = false) :
    step s = .refused .noResetYet := by
  simp [step, clockEdge, hseen, hrst]

/-- A take that answers a next state is `afterTake`, whether or not the status pair is known to be legal. -/
theorem eq_afterTake_of_takePhase {fire : Bool} {s t : State} (h : takePhase fire s = .next t) :
    t = afterTake fire s := by
  cases fire with
  | false =>
    cases h
    rfl
  | true =>
    obtain ⟨hok, hexec⟩ | ⟨hok, -, rfl⟩ := deliver_next h
    · rw [exec_classify_rBytes hok] at hexec
      cases hexec
      rfl
    · rw [afterTake_true, heldResult_of_not_rOk hok]

/-- An edge with `rst = 0` forgets no reset: neither transfer writes the mark. -/
theorem resetSeen_of_transferEdge {p : PortSample} {s t : State} (h : transferEdge p s = .next t) :
    t.resetSeen = s.resetSeen := by
  obtain ⟨u, htake, hload⟩ := transferEdge_next.mp h
  obtain rfl := eq_afterTake_of_takePhase htake
  rw [loadPhase_eq] at hload
  cases hload
  rw [afterLoad_resetSeen, afterTake_resetSeen]

/-! ### Steps with `rst = 0` -/

/-- Under back-pressure neither transfer happens, so not even a reserved status pair is met (R38, R158). -/
theorem step_of_stalled {s : State} (hseen : s.resetSeen = true) (hvalid : s.rValid = true)
    (hrst : s.ports.rst = false) (hready : s.ports.outReady = false) :
    step s = .next (countEdge (consumeSample s)) := by
  rw [step_eq_transferEdge hseen hrst]
  refine transferEdge_next.mpr ⟨countEdge (consumeSample s), ?take, ?load⟩
  case take => rw [outFire_consume, outFire_of_empty_or_not_outReady (.inr hready), takePhase_false]
  case load => rw [inFire_consume, inFire_of_stalled hvalid hready, loadPhase_false]

section Transfer

variable {s : State} (hseen : s.resetSeen = true) (hlegal : StatusLegal s)
include hseen hlegal

/-- An edge that accepts a frame loads `DECODE` of it, after the take of that edge (R38, R90). -/
theorem step_of_accept (hin : inFire s s.ports = true) :
    step s = .next (loadDecoded (decodeFrame Config.params s.ports.inFrame) (recordAccept s.ports.inFrame
      (afterTake (outFire s s.ports) (countEdge (consumeSample s))))) := by
  obtain ⟨-, -, hrst⟩ := inFire_eq_true.mp hin
  rw [step_eq_afterLoad hseen hlegal hrst, hin, afterLoad_true]

/-- At an edge with `out_fire` the consumer takes the held result, whether or not a frame is loaded too (R38). -/
theorem step_taken_of_outFire (hout : outFire s s.ports = true) :
    ∃ t, step s = .next t ∧ t.taken = s.taken ++ [heldResult s] := by
  obtain ⟨-, -, hrst⟩ := outFire_eq_true.mp hout
  exact ⟨_, step_eq_afterLoad hseen hlegal hrst, by simp [hout]⟩

end Transfer

/-! ### A stream of frames with `out_ready` held at 1 -/

/-- With the consumer ready, the take of an edge moves whatever is held to the results taken. -/
theorem taken_afterTake_of_outReady {s : State} {p : PortSample} (hready : p.outReady = true) (hrst : p.rst = false) :
    (afterTake (outFire s p) s).taken = s.taken ++ pendingResults s := by
  cases hvalid : s.rValid with
  | false => simp [outFire, hvalid, pendingResults]
  | true => simp [outFire, hvalid, hready, hrst, pendingResults]

/-- An edge that offers a frame to a ready consumer accepts it, and hands over what was held (R160). -/
theorem step_of_offer {s : State} {d : Word} {rest : List PortSample} (hseen : s.resetSeen = true)
    (hlegal : StatusLegal s) (hinputs : s.inputs = offerSample d :: rest) :
    ∃ t, step s = .next t ∧ t.inputs = rest ∧ t.resetSeen = true ∧ StatusLegal t ∧
      t.accepted = s.accepted ++ [d] ∧ t.taken = s.taken ++ pendingResults s ∧
      pendingResults t = [resultOf d] := by
  have hports : s.ports = offerSample d := ports_of_inputs_cons hinputs
  have hin : inFire s s.ports = true := by
    rw [hports]
    exact inFire_eq_true.mpr ⟨rfl, .inr rfl, rfl⟩
  have htaken : (afterTake (outFire s (offerSample d)) (countEdge (consumeSample s))).taken =
      s.taken ++ pendingResults s :=
    taken_afterTake_of_outReady (s := countEdge (consumeSample s)) (p := offerSample d) rfl rfl
  refine ⟨_, step_of_accept hseen hlegal hin, ?_⟩
  rw [hports]
  exact ⟨by simp [hinputs], by simpa using hseen, fun _ => decodeFrame_not_reserved _ _, by simp [offerSample],
    htaken, rfl⟩

/-- The stream of results is what is held, and then `DECODE` of each frame offered; after a run over the frames all of
it but its last result has been taken, and the last is held (R39, R160). -/
theorem run_of_offers (ds : List Word) (rest : List PortSample) :
    ∀ s : State, s.resetSeen = true → StatusLegal s → s.inputs = ds.map offerSample ++ rest →
      ∃ t, Host.Core.run Sys2Proof.core ds.length s = .next t ∧ t.inputs = rest ∧
        t.accepted = s.accepted ++ ds ∧
        t.taken = s.taken ++ (pendingResults s ++ ds.map resultOf).dropLast ∧
        pendingResults t = (pendingResults s ++ ds.map resultOf).getLast?.toList := by
  induction ds with
  | nil =>
    intro s _ _ hinputs
    refine ⟨s, rfl, hinputs, by simp, ?_⟩
    cases hvalid : s.rValid <;> simp [pendingResults, hvalid]
  | cons d ds ih =>
    intro s hseen hlegal hinputs
    obtain ⟨u, hstep, huinputs, huseen, hulegal, huaccepted, hutaken, hupending⟩ :=
      step_of_offer hseen hlegal hinputs
    obtain ⟨t, hrun, htinputs, htaccepted, httaken, htpending⟩ := ih u huseen hulegal huinputs
    refine ⟨t, (run_succ hstep).trans hrun, htinputs, ?accepted, ?taken, ?pending⟩
    case accepted => simp [htaccepted, huaccepted]
    case taken =>
      rw [httaken, hutaken, hupending, List.map_cons, List.singleton_append, List.append_assoc,
        List.dropLast_append_of_ne_nil (List.cons_ne_nil _ _)]
    case pending =>
      rw [htpending, hupending, List.map_cons, List.singleton_append,
        List.getLast?_append_of_ne_nil _ (List.cons_ne_nil _ _)]

/-! ### The statements -/

/-- Settles O29: `DECODE` of a frame that passes the raw check reads no parameter, and of any other frame it gives the
bytes of `DECRYPT`, which tells the keys apart. -/
theorem plaintextDecodesTheSameUnderAnyKey : Obligations.PlaintextDecodesTheSameUnderAnyKey := by
  refine fun p q d => ⟨fun hraw => ?_, fun hraw hcstate => ?_⟩
  · rw [decodeFrame_of_raw_pass hraw, decodeFrame_of_raw_pass hraw]
  · rw [decodeFrame_bytes_of_raw_fail hraw, decodeFrame_bytes_of_raw_fail hraw,
      decryptWord_eq_decryptWord_iff hcstate]

/-- Settles O40: both steps are reset edges, and the second starts in the reset that the first has begun. -/
theorem longerResetChangesNothingElse : Obligations.LongerResetChangesNothingElse := by
  intro s q r rest hinputs hq hr
  have hfirst : step s = .next (resetEdge (consumeSample s)) :=
    step_of_rst (by rwa [ports_of_inputs_cons hinputs])
  have htail : (resetEdge (consumeSample s)).inputs = r :: rest := inputs_tail_of_cons hinputs
  exact ⟨_, _, hfirst, step_of_rst (by rwa [ports_of_inputs_cons htail]), rfl, rfl,
    sameRegisters_resetEdge (s := consumeSample (resetEdge (consumeSample s))) rfl rfl⟩

/-- Settles O46: the accepting step loads `DECODE` of the frame, and the ports show what is loaded; the take of the next
edge hands over that result. -/
theorem resultIsOnThePortsAfterLatency : Obligations.ResultIsOnThePortsAfterLatency := by
  intro s hseen hlegal hin
  have hstep := step_of_accept hseen hlegal hin
  refine ⟨rfl, _, run_succ hstep, rfl, by rw [resultOnPorts_outPorts]; rfl, fun hrst hready => ?_⟩
  exact step_taken_of_outFire (by simpa using hseen) (fun _ => decodeFrame_not_reserved _ _)
    (outFire_eq_true.mpr ⟨rfl, hready, hrst⟩)

/-- Settles O47: the run over the offers from an empty register, where nothing comes before `DECODE` of the frames. -/
theorem fullThroughputStream : Obligations.FullThroughputStream := by
  intro ds rest s hseen hempty hinputs
  obtain ⟨t, hrun, hrest, haccepted, htaken, hpending⟩ :=
    run_of_offers ds rest s hseen (statusLegal_of_empty hempty) hinputs
  have hnone : pendingResults s = [] := by simp [pendingResults, hempty]
  rw [hnone, List.nil_append] at htaken hpending
  refine ⟨t, hrun, hrest, haccepted, ?_, ?_⟩
  · rw [htaken, List.map_dropLast]
  · rw [hpending, List.getLast?_map, Option.toList_map]

/-- Settles O52. -/
theorem heldResetKeepsEveryRegister : Obligations.HeldResetKeepsEveryRegister :=
  ⟨fun rs rest s hrst => run_of_held_reset rs rest hrst s, fun _ hrst => ⟨_, step_of_rst hrst, rfl, rfl⟩, rfl, rfl⟩

/-- Settles O39: a step with `rst = 1` is a reset edge, from any state. -/
theorem resetEdgeEmptiesTheRegister : Obligations.ResetEdgeEmptiesTheRegister := fun _ hrst =>
  ⟨_, step_of_rst hrst, rfl, rfl, inReady_of_empty rfl, rfl, rfl, rfl, rfl, rfl, rfl⟩

/-- Settles O41: a reset edge sets the mark of a reset, and a transfer edge happens only where the mark is set and
keeps it. -/
theorem edgeBeforeTheFirstResetIsRefused : Obligations.EdgeBeforeTheFirstResetIsRefused := by
  refine ⟨fun s => step_of_no_reset, fun s t hstep => ?_⟩
  obtain ⟨-, rfl⟩ | ⟨-, hseen, htransfer⟩ := step_next.mp hstep
  · rfl
  · rw [resetSeen_of_transferEdge htransfer, countEdge_resetSeen, consumeSample_resetSeen, hseen]

/-- Settles O44. -/
theorem heldResultStaysOnThePorts : Obligations.HeldResultStaysOnThePorts := fun s hseen hvalid hrst hready =>
  ⟨_, step_of_stalled hseen hvalid hrst hready, sameRegisters_refl s, outPorts_consume s, rfl, rfl⟩

/-- Settles O50: every reset edge leaves the invariant, and `State.reset` is left by one. -/
theorem resetStateMeetsTheInvariant : Obligations.ResetStateMeetsTheInvariant :=
  ⟨resetEdge_reset ▸ blockInv_resetEdge State.reset, rfl, rfl, inReady_of_empty rfl⟩

end Sys2Proof.Machine
end
